-- ==== Sys2Proof/Word.lean ====
section
/-! DEFINITION. The word and byte types of Micron (00_scope.md R6: registers and addresses of 32 bits, bytes of 8). -/

namespace Sys2Proof

/-- A 32-bit register value or address (R6). -/
abbrev Word := BitVec 32

/-- An 8-bit byte (R6, "CHAR_BIT is 8"). -/
abbrev Byte := BitVec 8

end Sys2Proof
end

