-- ==== Sys2Proof/Syntax.lean ====
section
/-! DEFINITION. The instructions of Micron: one constructor for each row of spec/opcode_table.json, 55 CPU instructions
(30_encoding.md R102, R110) and 9 FPU unit functions (47_fpu_unit.md R278). Field names are the spec's. -/

namespace Sys2Proof

/-- The sixteen condition codes of 43_branches.md R201, named as the source names them. -/
inductive Cond where
  | never | carry | zero | overflow | carryOrEqual | signedLess | signedLessOrEq | negative
  | positive | signedGreater | signedGreaterOrEq | above | notOverflow | notZero | notCarry | always
  deriving DecidableEq, Repr

/-- The floating-point formats of 47_fpu_unit.md R284. -/
inductive FloatFormat where
  | fp16
  | fp32
  deriving DecidableEq, Repr

/-- The rounding modes of 47_fpu_unit.md R276, numbers 0 to 3. -/
inductive RoundMode where
  | nearestEven
  | towardZero
  | towardPositive
  | towardNegative
  deriving DecidableEq, Repr

/-- A unit instruction of the FPU as the unit decodes it (R278), without the slot the unit sits in. -/
inductive UnitInstr where
  | fpause (k : BitVec 4)
  | fpmov (s d : BitVec 5) (c : Cond)
  | cvtf2f (s d : BitVec 4) (f k : FloatFormat) (y : Bool) (r : RoundMode)
  | cvti2f (s : BitVec 3) (d : BitVec 4) (i : Bool) (k : FloatFormat) (y : Bool) (r : RoundMode)
  | cvtf2i (s : BitVec 4) (d : BitVec 3) (f : FloatFormat) (i : Bool) (y : Bool) (r : RoundMode)
  | fadd (d a b : BitVec 4) (y : Bool) (r : RoundMode)
  | fsub (d a b : BitVec 4) (y : Bool) (r : RoundMode)
  | fmul (d a b : BitVec 4) (y : Bool) (r : RoundMode)
  | ffma (d a b c : BitVec 4) (y : Bool) (r : RoundMode)
  deriving DecidableEq, Repr

/-- One instruction. The last nine are the FPU's unit functions, their first operand `n` the slot of the unit that runs
them (log 16); every other constructor is a CPU instruction, one 32-bit word. -/
inductive Instr where
  -- 40_und_pause_mov.md; the two UND opcodes are two rows, their payload is ignored (R141)
  | und00 (payload : BitVec 24)
  | undFF (payload : BitVec 24)
  | pause (k : BitVec 6)
  | mov (d s : BitVec 5) (l : Bool) (c : Cond) (r : Bool) (m : BitVec 4)
  -- 41_load_store.md
  | st (d s : BitVec 5) (w : BitVec 2) (p : Bool)
  | ld (d s : BitVec 5) (w : BitVec 2) (p : Bool)
  | lra (d : BitVec 5) (x : Bool) (o : BitVec 16)
  -- 42_arithmetic.md
  | addi (d : BitVec 5) (h c s : Bool) (i : BitVec 16)
  | add (d a b : BitVec 5) (c : Bool) (s : BitVec 5) (p : Bool)
  | sub (d a b : BitVec 5) (c : Bool) (s : BitVec 5) (p : Bool)
  | and (d a b : BitVec 5) (c : Bool) (s : BitVec 5) (p : Bool)
  | or (d a b : BitVec 5) (c : Bool) (s : BitVec 5) (p : Bool)
  | xor (d a b : BitVec 5) (c : Bool) (s : BitVec 5) (p : Bool)
  | bsl (d v q : BitVec 5) (c x w : Bool) (r : BitVec 5)
  | bsr (d v q : BitVec 5) (c x w : Bool) (r : BitVec 5)
  -- 43_branches.md
  | jmp (c : Cond) (l : BitVec 5) (o : BitVec 15)
  | jmpr (c : Cond) (l r : BitVec 5)
  -- 44_io_flags.md
  | inp (d : BitVec 5) (p : BitVec 8) (w : BitVec 5)
  | out (s : BitVec 5) (p : BitVec 8) (w : BitVec 5)
  | ldflags (d : BitVec 5)
  | stflags (s : BitVec 5)
  -- 45_coprocessor_invoke.md
  | cpi0 (f : BitVec 4) (p : BitVec 20)
  | cpi1 (f : BitVec 4) (p : BitVec 20)
  | cpi2 (f : BitVec 4) (p : BitVec 20)
  | cpi3 (f : BitVec 4) (p : BitVec 20)
  | cpi4 (f : BitVec 4) (p : BitVec 20)
  | cpi5 (f : BitVec 4) (p : BitVec 20)
  | cpi6 (f : BitVec 4) (p : BitVec 20)
  | cpi7 (f : BitVec 4) (p : BitVec 20)
  | ncpi0 (f : BitVec 4) (p : BitVec 20)
  | ncpi1 (f : BitVec 4) (p : BitVec 20)
  | ncpi2 (f : BitVec 4) (p : BitVec 20)
  | ncpi3 (f : BitVec 4) (p : BitVec 20)
  | ncpi4 (f : BitVec 4) (p : BitVec 20)
  | ncpi5 (f : BitVec 4) (p : BitVec 20)
  | ncpi6 (f : BitVec 4) (p : BitVec 20)
  | ncpi7 (f : BitVec 4) (p : BitVec 20)
  | cpi0ef (f : BitVec 6) (p : BitVec 18)
  | cpi1ef (f : BitVec 6) (p : BitVec 18)
  | cpi2ef (f : BitVec 6) (p : BitVec 18)
  | cpi3ef (f : BitVec 6) (p : BitVec 18)
  | cpi4ef (f : BitVec 6) (p : BitVec 18)
  | cpi5ef (f : BitVec 6) (p : BitVec 18)
  | cpi6ef (f : BitVec 6) (p : BitVec 18)
  | cpi7ef (f : BitVec 6) (p : BitVec 18)
  | ncpi0ef (f : BitVec 6) (p : BitVec 18)
  | ncpi1ef (f : BitVec 6) (p : BitVec 18)
  | ncpi2ef (f : BitVec 6) (p : BitVec 18)
  | ncpi3ef (f : BitVec 6) (p : BitVec 18)
  | ncpi4ef (f : BitVec 6) (p : BitVec 18)
  | ncpi5ef (f : BitVec 6) (p : BitVec 18)
  | ncpi6ef (f : BitVec 6) (p : BitVec 18)
  | ncpi7ef (f : BitVec 6) (p : BitVec 18)
  -- 46_halt_stop.md
  | halt
  | stop
  -- 47_fpu_unit.md
  | fpause (n : BitVec 3) (k : BitVec 4)
  | fpmov (n : BitVec 3) (s d : BitVec 5) (c : Cond)
  | cvtf2f (n : BitVec 3) (s d : BitVec 4) (f k : FloatFormat) (y : Bool) (r : RoundMode)
  | cvti2f (n : BitVec 3) (s : BitVec 3) (d : BitVec 4) (i : Bool) (k : FloatFormat) (y : Bool) (r : RoundMode)
  | cvtf2i (n : BitVec 3) (s : BitVec 4) (d : BitVec 3) (f : FloatFormat) (i : Bool) (y : Bool) (r : RoundMode)
  | fadd (n : BitVec 3) (d a b : BitVec 4) (y : Bool) (r : RoundMode)
  | fsub (n : BitVec 3) (d a b : BitVec 4) (y : Bool) (r : RoundMode)
  | fmul (n : BitVec 3) (d a b : BitVec 4) (y : Bool) (r : RoundMode)
  | ffma (n : BitVec 3) (d a b c : BitVec 4) (y : Bool) (r : RoundMode)
  deriving DecidableEq, Repr

/-- CPIx as one family over the slot x (45_coprocessor_invoke.md R242). -/
def Instr.cpiOf (x : BitVec 3) (f : BitVec 4) (p : BitVec 20) : Instr :=
  match x with
  | 0#3 => .cpi0 f p
  | 1#3 => .cpi1 f p
  | 2#3 => .cpi2 f p
  | 3#3 => .cpi3 f p
  | 4#3 => .cpi4 f p
  | 5#3 => .cpi5 f p
  | 6#3 => .cpi6 f p
  | 7#3 => .cpi7 f p

/-- NCPIx as one family over the slot x (R243). -/
def Instr.ncpiOf (x : BitVec 3) (f : BitVec 4) (p : BitVec 20) : Instr :=
  match x with
  | 0#3 => .ncpi0 f p
  | 1#3 => .ncpi1 f p
  | 2#3 => .ncpi2 f p
  | 3#3 => .ncpi3 f p
  | 4#3 => .ncpi4 f p
  | 5#3 => .ncpi5 f p
  | 6#3 => .ncpi6 f p
  | 7#3 => .ncpi7 f p

/-- CPIxEF as one family over the slot x (R244). -/
def Instr.cpiefOf (x : BitVec 3) (f : BitVec 6) (p : BitVec 18) : Instr :=
  match x with
  | 0#3 => .cpi0ef f p
  | 1#3 => .cpi1ef f p
  | 2#3 => .cpi2ef f p
  | 3#3 => .cpi3ef f p
  | 4#3 => .cpi4ef f p
  | 5#3 => .cpi5ef f p
  | 6#3 => .cpi6ef f p
  | 7#3 => .cpi7ef f p

/-- NCPIxEF as one family over the slot x (R245). -/
def Instr.ncpiefOf (x : BitVec 3) (f : BitVec 6) (p : BitVec 18) : Instr :=
  match x with
  | 0#3 => .ncpi0ef f p
  | 1#3 => .ncpi1ef f p
  | 2#3 => .ncpi2ef f p
  | 3#3 => .ncpi3ef f p
  | 4#3 => .ncpi4ef f p
  | 5#3 => .ncpi5ef f p
  | 6#3 => .ncpi6ef f p
  | 7#3 => .ncpi7ef f p

/-- A unit instruction run by the unit in slot `n`. -/
def UnitInstr.toInstr (n : BitVec 3) : UnitInstr → Instr
  | .fpause k => .fpause n k
  | .fpmov s d c => .fpmov n s d c
  | .cvtf2f s d f k y r => .cvtf2f n s d f k y r
  | .cvti2f s d i k y r => .cvti2f n s d i k y r
  | .cvtf2i s d f i y r => .cvtf2i n s d f i y r
  | .fadd d a b y r => .fadd n d a b y r
  | .fsub d a b y r => .fsub n d a b y r
  | .fmul d a b y r => .fmul n d a b y r
  | .ffma d a b c y r => .ffma n d a b c y r

/-- The slot and unit instruction of a unit-function constructor, none for a CPU instruction. -/
def Instr.toUnit : Instr → Option (BitVec 3 × UnitInstr)
  | .fpause n k => some (n, .fpause k)
  | .fpmov n s d c => some (n, .fpmov s d c)
  | .cvtf2f n s d f k y r => some (n, .cvtf2f s d f k y r)
  | .cvti2f n s d i k y r => some (n, .cvti2f s d i k y r)
  | .cvtf2i n s d f i y r => some (n, .cvtf2i s d f i y r)
  | .fadd n d a b y r => some (n, .fadd d a b y r)
  | .fsub n d a b y r => some (n, .fsub d a b y r)
  | .fmul n d a b y r => some (n, .fmul d a b y r)
  | .ffma n d a b c y r => some (n, .ffma d a b c y r)
  | .und00 _ | .undFF _ | .pause _ | .mov .. | .st .. | .ld .. | .lra .. | .addi .. | .add .. | .sub .. | .and ..
  | .or .. | .xor .. | .bsl .. | .bsr .. | .jmp .. | .jmpr .. | .inp .. | .out .. | .ldflags _ | .stflags _
  | .cpi0 .. | .cpi1 .. | .cpi2 .. | .cpi3 .. | .cpi4 .. | .cpi5 .. | .cpi6 .. | .cpi7 ..
  | .ncpi0 .. | .ncpi1 .. | .ncpi2 .. | .ncpi3 .. | .ncpi4 .. | .ncpi5 .. | .ncpi6 .. | .ncpi7 ..
  | .cpi0ef .. | .cpi1ef .. | .cpi2ef .. | .cpi3ef .. | .cpi4ef .. | .cpi5ef .. | .cpi6ef .. | .cpi7ef ..
  | .ncpi0ef .. | .ncpi1ef .. | .ncpi2ef .. | .ncpi3ef .. | .ncpi4ef .. | .ncpi5ef .. | .ncpi6ef .. | .ncpi7ef ..
  | .halt | .stop => none

end Sys2Proof
end

