-- ==== Sys2Proof/Decode.lean ====
section
/-! DEFINITION. Decoding and encoding of instruction words (30_encoding.md) and of the FPU's unit instructions
(47_fpu_unit.md R278). Every field position is the spec's `[hi:lo]`; `w.extractLsb' lo n` is the n-bit field at `lo`. -/

namespace Sys2Proof

/-! ### Numbers of the named fields -/

/-- The condition code with a given number (43_branches.md R201). -/
def Cond.ofBits (c : BitVec 4) : Cond :=
  match c.toNat with
  | 0 => .never
  | 1 => .carry
  | 2 => .zero
  | 3 => .overflow
  | 4 => .carryOrEqual
  | 5 => .signedLess
  | 6 => .signedLessOrEq
  | 7 => .negative
  | 8 => .positive
  | 9 => .signedGreater
  | 10 => .signedGreaterOrEq
  | 11 => .above
  | 12 => .notOverflow
  | 13 => .notZero
  | 14 => .notCarry
  | _ => .always

/-- The number of a condition code (R201). -/
def Cond.toBits : Cond → BitVec 4
  | .never => 0#4
  | .carry => 1#4
  | .zero => 2#4
  | .overflow => 3#4
  | .carryOrEqual => 4#4
  | .signedLess => 5#4
  | .signedLessOrEq => 6#4
  | .negative => 7#4
  | .positive => 8#4
  | .signedGreater => 9#4
  | .signedGreaterOrEq => 10#4
  | .above => 11#4
  | .notOverflow => 12#4
  | .notZero => 13#4
  | .notCarry => 14#4
  | .always => 15#4

/-- The rounding mode with a given number (47_fpu_unit.md R276). -/
def RoundMode.ofBits (r : BitVec 2) : RoundMode :=
  match r with
  | 0#2 => .nearestEven
  | 1#2 => .towardZero
  | 2#2 => .towardPositive
  | 3#2 => .towardNegative

/-- The number of a rounding mode (R276). -/
def RoundMode.toBits : RoundMode → BitVec 2
  | .nearestEven => 0#2
  | .towardZero => 1#2
  | .towardPositive => 2#2
  | .towardNegative => 3#2

/-- The format with a given number; 2 and 3 are undefined (R284). -/
def FloatFormat.ofBits (f : BitVec 2) : Option FloatFormat :=
  match f with
  | 0#2 => some .fp16
  | 1#2 => some .fp32
  | 2#2 => none
  | 3#2 => none

/-- The number of a format (R284). -/
def FloatFormat.toBits : FloatFormat → BitVec 2
  | .fp16 => 0#2
  | .fp32 => 1#2

/-- A one-bit field as a truth value. -/
def bitField {n : Nat} (w : BitVec n) (i : Nat) : Bool := w.getLsbD i

/-! ### CPU instruction words -/

/-- Why a word is no instruction: its opcode has no row (R111), or a must-be-zero bit is set (R112). -/
inductive DecodeError where
  | unassignedOpcode (opcode : BitVec 8)
  | reservedBits (opcode : BitVec 8)
  deriving DecidableEq, Repr

/-- Accept `i` when the must-be-zero bits are zero (R112). -/
def accept (zero : Bool) (opcode : BitVec 8) (i : Instr) : Except DecodeError Instr :=
  if zero then .ok i else .error (.reservedBits opcode)

/-- Format F-MOV (R102, R144). -/
def decodeMov (w : Word) : Except DecodeError Instr :=
  accept (w.extractLsb' 18 2 == 0 && w.extractLsb' 30 2 == 0) 0x02
    (.mov (w.extractLsb' 8 5) (w.extractLsb' 13 5) (bitField w 20) (Cond.ofBits (w.extractLsb' 21 4)) (bitField w 25)
      (w.extractLsb' 26 4))

/-- Format F-MEM (R102, R160). -/
def decodeMem (op : BitVec 8) (mk : BitVec 5 → BitVec 5 → BitVec 2 → Bool → Instr) (w : Word) :
    Except DecodeError Instr :=
  accept (w.extractLsb' 20 11 == 0) op
    (mk (w.extractLsb' 8 5) (w.extractLsb' 13 5) (w.extractLsb' 18 2) (bitField w 31))

/-- Format F-ALU (R102, R188). -/
def decodeAlu (op : BitVec 8) (mk : BitVec 5 → BitVec 5 → BitVec 5 → Bool → BitVec 5 → Bool → Instr) (w : Word) :
    Except DecodeError Instr :=
  accept (w.extractLsb' 30 2 == 0) op
    (mk (w.extractLsb' 8 5) (w.extractLsb' 13 5) (w.extractLsb' 18 5) (bitField w 23) (w.extractLsb' 24 5)
      (bitField w 29))

/-- Format F-BS (R102, R186). -/
def decodeBs (op : BitVec 8)
    (mk : BitVec 5 → BitVec 5 → BitVec 5 → Bool → Bool → Bool → BitVec 5 → Instr) (w : Word) :
    Except DecodeError Instr :=
  accept (w.extractLsb' 25 1 == 0) op
    (mk (w.extractLsb' 8 5) (w.extractLsb' 13 5) (w.extractLsb' 18 5) (bitField w 23) (bitField w 24) (bitField w 26)
      (w.extractLsb' 27 5))

/-- Format F-IO (R102, R220). -/
def decodeIo (op : BitVec 8) (mk : BitVec 5 → BitVec 8 → BitVec 5 → Instr) (w : Word) : Except DecodeError Instr :=
  accept (w.extractLsb' 21 6 == 0) op (mk (w.extractLsb' 8 5) (w.extractLsb' 13 8) (w.extractLsb' 27 5))

/-- Format F-FLAGS (R102). -/
def decodeFlags (op : BitVec 8) (mk : BitVec 5 → Instr) (w : Word) : Except DecodeError Instr :=
  accept (w.extractLsb' 13 19 == 0) op (mk (w.extractLsb' 8 5))

/-- The CPI group, opcodes 0x20 to 0x3F: slot in opcode bits 2:0, no-wait in bit 3, extended function in bit 4
(45_coprocessor_invoke.md R240; formats F-CPI and F-CPIEF of R102). -/
def decodeCpi (w : Word) : Instr :=
  let x := w.extractLsb' 0 3
  match bitField w 4, bitField w 3 with
  | false, false => Instr.cpiOf x (w.extractLsb' 8 4) (w.extractLsb' 12 20)
  | false, true => Instr.ncpiOf x (w.extractLsb' 8 4) (w.extractLsb' 12 20)
  | true, false => Instr.cpiefOf x (w.extractLsb' 8 6) (w.extractLsb' 14 18)
  | true, true => Instr.ncpiefOf x (w.extractLsb' 8 6) (w.extractLsb' 14 18)

/-- Opcodes 0x00 to 0x1F (R110). -/
def decodeLow (op : BitVec 8) (w : Word) : Except DecodeError Instr :=
  match op.toNat with
  | 0x00 => .ok (.und00 (w.extractLsb' 8 24))
  | 0x01 => accept (w.extractLsb' 14 18 == 0) op (.pause (w.extractLsb' 8 6))
  | 0x02 => decodeMov w
  | 0x03 => decodeMem op .st w
  | 0x04 => decodeMem op .ld w
  | 0x06 => accept (w.extractLsb' 14 2 == 0) op (.lra (w.extractLsb' 8 5) (bitField w 13) (w.extractLsb' 16 16))
  | 0x08 => .ok (.addi (w.extractLsb' 8 5) (bitField w 13) (bitField w 14) (bitField w 15) (w.extractLsb' 16 16))
  | 0x09 => decodeAlu op .add w
  | 0x0A => decodeAlu op .sub w
  | 0x0B => decodeAlu op .and w
  | 0x0C => decodeAlu op .or w
  | 0x0D => decodeAlu op .xor w
  | 0x0E => decodeBs op .bsl w
  | 0x0F => decodeBs op .bsr w
  | 0x10 => .ok (.jmp (Cond.ofBits (w.extractLsb' 8 4)) (w.extractLsb' 12 5) (w.extractLsb' 17 15))
  | 0x11 => accept (w.extractLsb' 22 10 == 0) op
      (.jmpr (Cond.ofBits (w.extractLsb' 8 4)) (w.extractLsb' 12 5) (w.extractLsb' 17 5))
  | 0x14 => decodeIo op .inp w
  | 0x15 => decodeIo op .out w
  | 0x18 => decodeFlags op .ldflags w
  | 0x19 => decodeFlags op .stflags w
  | _ => .error (.unassignedOpcode op)

/-- Decode one instruction word (R100 to R116). -/
def decode (w : Word) : Except DecodeError Instr :=
  let op := w.extractLsb' 0 8
  if op.toNat < 0x20 then decodeLow op w
  else if op.toNat < 0x40 then .ok (decodeCpi w)
  else if op = 0x40 then accept (w.extractLsb' 8 24 == 0) op .halt
  else if op = 0x41 then accept (w.extractLsb' 8 24 == 0) op .stop
  else if op = 0xFF then .ok (.undFF (w.extractLsb' 8 24))
  else .error (.unassignedOpcode op)

/-! ### Unit instructions of the FPU -/

/-- What the FPU makes of a function number and payload (47_fpu_unit.md R278, R279): a unit instruction; one it calls
invalid (a must-be-zero payload bit, or an undefined format), which is Error 2; or a function with no row. -/
inductive UnitDecoded where
  | instr (u : UnitInstr)
  | invalid
  | unlisted
  deriving DecidableEq, Repr

/-- Accept `u` when the must-be-zero payload bits are zero (R279). -/
def acceptUnit (zero : Bool) (u : UnitInstr) : UnitDecoded := if zero then .instr u else .invalid

/-- Payload of FADD, FSUB and FMUL (R288). -/
def decodeArith (mk : BitVec 4 → BitVec 4 → BitVec 4 → Bool → RoundMode → UnitInstr) (p : BitVec 20) : UnitDecoded :=
  acceptUnit (p.extractLsb' 12 5 == 0)
    (mk (p.extractLsb' 0 4) (p.extractLsb' 4 4) (p.extractLsb' 8 4) (bitField p 17)
      (RoundMode.ofBits (p.extractLsb' 18 2)))

/-- Decode a unit instruction, function `f` and payload `p` (R278). -/
def decodeUnit (f : BitVec 6) (p : BitVec 20) : UnitDecoded :=
  let y := bitField p 17
  let r := RoundMode.ofBits (p.extractLsb' 18 2)
  match f.toNat with
  | 0x00 => acceptUnit (p.extractLsb' 4 16 == 0) (.fpause (p.extractLsb' 0 4))
  | 0x01 => acceptUnit (p.extractLsb' 14 6 == 0)
      (.fpmov (p.extractLsb' 0 5) (p.extractLsb' 5 5) (Cond.ofBits (p.extractLsb' 10 4)))
  | 0x04 =>
    match FloatFormat.ofBits (p.extractLsb' 8 2), FloatFormat.ofBits (p.extractLsb' 10 2) with
    | some f, some k => acceptUnit (p.extractLsb' 12 5 == 0) (.cvtf2f (p.extractLsb' 0 4) (p.extractLsb' 4 4) f k y r)
    | some _, none => .invalid
    | none, _ => .invalid
  | 0x05 =>
    match FloatFormat.ofBits (p.extractLsb' 10 2) with
    | some k => acceptUnit (p.extractLsb' 3 1 == 0 && p.extractLsb' 9 1 == 0 && p.extractLsb' 12 5 == 0)
        (.cvti2f (p.extractLsb' 0 3) (p.extractLsb' 4 4) (bitField p 8) k y r)
    | none => .invalid
  | 0x06 =>
    match FloatFormat.ofBits (p.extractLsb' 8 2) with
    | some f => acceptUnit (p.extractLsb' 7 1 == 0 && p.extractLsb' 11 6 == 0)
        (.cvtf2i (p.extractLsb' 0 4) (p.extractLsb' 4 3) f (bitField p 10) y r)
    | none => .invalid
  | 0x08 => decodeArith .fadd p
  | 0x09 => decodeArith .fsub p
  | 0x0A => decodeArith .fmul p
  | 0x0B => acceptUnit (p.extractLsb' 16 1 == 0)
      (.ffma (p.extractLsb' 0 4) (p.extractLsb' 4 4) (p.extractLsb' 8 4) (p.extractLsb' 12 4) y r)
  | _ => .unlisted

/-! ### The encoder, from the same tables -/

/-- A truth value as a one-bit field. -/
def flagBit (b : Bool) : BitVec 1 := BitVec.ofBool b

/-- Function number and payload of a unit instruction (R278). -/
def encodeUnit : UnitInstr → BitVec 6 × BitVec 20
  | .fpause k => (0x00, 0#16 ++ k)
  | .fpmov s d c => (0x01, 0#6 ++ c.toBits ++ d ++ s)
  | .cvtf2f s d f k y r => (0x04, r.toBits ++ flagBit y ++ 0#5 ++ k.toBits ++ f.toBits ++ d ++ s)
  | .cvti2f s d i k y r => (0x05, r.toBits ++ flagBit y ++ 0#5 ++ k.toBits ++ 0#1 ++ flagBit i ++ d ++ 0#1 ++ s)
  | .cvtf2i s d f i y r => (0x06, r.toBits ++ flagBit y ++ 0#6 ++ flagBit i ++ f.toBits ++ 0#1 ++ d ++ s)
  | .fadd d a b y r => (0x08, r.toBits ++ flagBit y ++ 0#5 ++ b ++ a ++ d)
  | .fsub d a b y r => (0x09, r.toBits ++ flagBit y ++ 0#5 ++ b ++ a ++ d)
  | .fmul d a b y r => (0x0A, r.toBits ++ flagBit y ++ 0#5 ++ b ++ a ++ d)
  | .ffma d a b c y r => (0x0B, r.toBits ++ flagBit y ++ 0#1 ++ c ++ b ++ a ++ d)

/-- Format F-MEM. -/
def encodeMem (op : BitVec 8) (d s : BitVec 5) (w : BitVec 2) (p : Bool) : Word :=
  flagBit p ++ 0#11 ++ w ++ s ++ d ++ op

/-- Format F-ALU. -/
def encodeAlu (op : BitVec 8) (d a b : BitVec 5) (c : Bool) (s : BitVec 5) (p : Bool) : Word :=
  0#2 ++ flagBit p ++ s ++ flagBit c ++ b ++ a ++ d ++ op

/-- Format F-BS. -/
def encodeBs (op : BitVec 8) (d v q : BitVec 5) (c x w : Bool) (r : BitVec 5) : Word :=
  r ++ flagBit w ++ 0#1 ++ flagBit x ++ flagBit c ++ q ++ v ++ d ++ op

/-- Format F-IO. -/
def encodeIo (op : BitVec 8) (d : BitVec 5) (p : BitVec 8) (w : BitVec 5) : Word := w ++ 0#6 ++ p ++ d ++ op

/-- Format F-CPI. -/
def encodeCpi (op : BitVec 8) (f : BitVec 4) (p : BitVec 20) : Word := p ++ f ++ op

/-- Format F-CPIEF. -/
def encodeCpief (op : BitVec 8) (f : BitVec 6) (p : BitVec 18) : Word := p ++ f ++ op

/-- The CPIx word that issues a unit instruction to slot `n` and waits (45_coprocessor_invoke.md R242); every function of
R278 is below 16. -/
def encodeIssue (n : BitVec 3) (u : UnitInstr) : Word :=
  encodeCpi (0b00100#5 ++ n) ((encodeUnit u).1.extractLsb' 0 4) (encodeUnit u).2

/-- The word of an instruction (R102, R110). A unit function's word is the CPIx that issues it. -/
def encode : Instr → Word
  | .und00 payload => payload ++ 0x00#8
  | .undFF payload => payload ++ 0xFF#8
  | .pause k => 0#18 ++ k ++ 0x01#8
  | .mov d s l c r m => 0#2 ++ m ++ flagBit r ++ c.toBits ++ flagBit l ++ 0#2 ++ s ++ d ++ 0x02#8
  | .st d s w p => encodeMem 0x03 d s w p
  | .ld d s w p => encodeMem 0x04 d s w p
  | .lra d x o => o ++ 0#2 ++ flagBit x ++ d ++ 0x06#8
  | .addi d h c s i => i ++ flagBit s ++ flagBit c ++ flagBit h ++ d ++ 0x08#8
  | .add d a b c s p => encodeAlu 0x09 d a b c s p
  | .sub d a b c s p => encodeAlu 0x0A d a b c s p
  | .and d a b c s p => encodeAlu 0x0B d a b c s p
  | .or d a b c s p => encodeAlu 0x0C d a b c s p
  | .xor d a b c s p => encodeAlu 0x0D d a b c s p
  | .bsl d v q c x w r => encodeBs 0x0E d v q c x w r
  | .bsr d v q c x w r => encodeBs 0x0F d v q c x w r
  | .jmp c l o => o ++ l ++ c.toBits ++ 0x10#8
  | .jmpr c l r => 0#10 ++ r ++ l ++ c.toBits ++ 0x11#8
  | .inp d p w => encodeIo 0x14 d p w
  | .out s p w => encodeIo 0x15 s p w
  | .ldflags d => 0#19 ++ d ++ 0x18#8
  | .stflags s => 0#19 ++ s ++ 0x19#8
  | .cpi0 f p => encodeCpi 0x20 f p
  | .cpi1 f p => encodeCpi 0x21 f p
  | .cpi2 f p => encodeCpi 0x22 f p
  | .cpi3 f p => encodeCpi 0x23 f p
  | .cpi4 f p => encodeCpi 0x24 f p
  | .cpi5 f p => encodeCpi 0x25 f p
  | .cpi6 f p => encodeCpi 0x26 f p
  | .cpi7 f p => encodeCpi 0x27 f p
  | .ncpi0 f p => encodeCpi 0x28 f p
  | .ncpi1 f p => encodeCpi 0x29 f p
  | .ncpi2 f p => encodeCpi 0x2A f p
  | .ncpi3 f p => encodeCpi 0x2B f p
  | .ncpi4 f p => encodeCpi 0x2C f p
  | .ncpi5 f p => encodeCpi 0x2D f p
  | .ncpi6 f p => encodeCpi 0x2E f p
  | .ncpi7 f p => encodeCpi 0x2F f p
  | .cpi0ef f p => encodeCpief 0x30 f p
  | .cpi1ef f p => encodeCpief 0x31 f p
  | .cpi2ef f p => encodeCpief 0x32 f p
  | .cpi3ef f p => encodeCpief 0x33 f p
  | .cpi4ef f p => encodeCpief 0x34 f p
  | .cpi5ef f p => encodeCpief 0x35 f p
  | .cpi6ef f p => encodeCpief 0x36 f p
  | .cpi7ef f p => encodeCpief 0x37 f p
  | .ncpi0ef f p => encodeCpief 0x38 f p
  | .ncpi1ef f p => encodeCpief 0x39 f p
  | .ncpi2ef f p => encodeCpief 0x3A f p
  | .ncpi3ef f p => encodeCpief 0x3B f p
  | .ncpi4ef f p => encodeCpief 0x3C f p
  | .ncpi5ef f p => encodeCpief 0x3D f p
  | .ncpi6ef f p => encodeCpief 0x3E f p
  | .ncpi7ef f p => encodeCpief 0x3F f p
  | .halt => 0x40#32
  | .stop => 0x41#32
  | .fpause n k => encodeIssue n (.fpause k)
  | .fpmov n s d c => encodeIssue n (.fpmov s d c)
  | .cvtf2f n s d f k y r => encodeIssue n (.cvtf2f s d f k y r)
  | .cvti2f n s d i k y r => encodeIssue n (.cvti2f s d i k y r)
  | .cvtf2i n s d f i y r => encodeIssue n (.cvtf2i s d f i y r)
  | .fadd n d a b y r => encodeIssue n (.fadd d a b y r)
  | .fsub n d a b y r => encodeIssue n (.fsub d a b y r)
  | .fmul n d a b y r => encodeIssue n (.fmul d a b y r)
  | .ffma n d a b c y r => encodeIssue n (.ffma d a b c y r)

/-! ### Bytes, and the host's view of the opcode table -/

/-- The four bytes of a word as they lie in memory, the opcode byte first (20_memory.md R71). -/
def wordBytes (w : Word) : List Byte :=
  [w.extractLsb' 0 8, w.extractLsb' 8 8, w.extractLsb' 16 8, w.extractLsb' 24 8]

/-- The word whose bytes lie in memory from the lowest address up (R71, R73); fewer than four bytes make no word. -/
def wordOfBytes : List Byte → Option Word
  | b0 :: b1 :: b2 :: b3 :: _ => some (b3 ++ b2 ++ b1 ++ b0)
  | [] => none
  | [_] => none
  | [_, _] => none
  | [_, _, _] => none

/-- The instruction at the head of a byte string and the bytes after it; none when the bytes make no instruction. -/
def decodeBytes (bs : List Byte) : Option (Instr × List Byte) :=
  match wordOfBytes bs with
  | none => none
  | some w =>
    match decode w with
    | .ok i => some (i, bs.drop 4)
    | .error _ => none

/-- The instruction the decoder reads from an instruction whose bits are `w`, numbered as spec/opcode_table.json numbers
them. Every row has one 32-bit word; the bits above `nbits` are zero. -/
def decodeTableWord (nbits w : Nat) : Option Instr :=
  match decodeBytes (wordBytes (BitVec.ofNat 32 (w % 2 ^ min nbits 32))) with
  | some (i, _) => some i
  | none => none

end Sys2Proof
end

