-- ==== Sys2Proof/Machine/Flags.lean ====
section
/-! DEFINITION. The flags (10_state.md R30), how the arithmetic writes them (42_arithmetic.md R189) and how the conditions
read them (43_branches.md R202). -/

namespace Sys2Proof.Machine

/-- The flags register with the given Z, N, V, C: bits 0, 1, 2, 3 (R30). -/
def packFlags (z n v c : Bool) : BitVec 4 :=
  BitVec.ofBool c ++ BitVec.ofBool v ++ BitVec.ofBool n ++ BitVec.ofBool z

/-- Z (R30). -/
def flagZ (f : BitVec 4) : Bool := f.getLsbD 0

/-- N (R30). -/
def flagN (f : BitVec 4) : Bool := f.getLsbD 1

/-- V (R30). -/
def flagV (f : BitVec 4) : Bool := f.getLsbD 2

/-- C (R30). -/
def flagC (f : BitVec 4) : Bool := f.getLsbD 3

/-- AddFlags(a, b): result and flags; C is the carry out of bit 31, V two's-complement overflow (R189). -/
def addFlags (a b : Word) : Word × BitVec 4 :=
  let sum33 := a.setWidth 33 + b.setWidth 33
  let dest := sum33.setWidth 32
  (dest, packFlags (dest == 0) dest.msb (a.msb == b.msb && dest.msb != a.msb) (sum33.getLsbD 32))

/-- SubFlags(a, b): a - b and its flags; C is the borrow, V two's-complement overflow (R189). -/
def subFlags (a b : Word) : Word × BitVec 4 :=
  let dest := a - b
  (dest, packFlags (dest == 0) dest.msb (a.msb != b.msb && dest.msb != a.msb) (a.ult b))

/-- The flags after a logic operation: N and Z of the result, C and V kept (R183, R189). -/
def logicFlags (old : BitVec 4) (dest : Word) : BitVec 4 := packFlags (dest == 0) dest.msb (flagV old) (flagC old)

end Sys2Proof.Machine

namespace Sys2Proof

open Machine in
/-- Cond(flags, c) (43_branches.md R202): the source's predicates, whose signed rows do not test what their names say
(R205). -/
def Cond.holds (f : BitVec 4) : Cond → Bool
  | .never => false
  | .carry => flagC f
  | .zero => flagZ f
  | .overflow => flagV f
  | .carryOrEqual => flagC f || flagZ f
  | .signedLess => flagV f == flagN f && !flagZ f
  | .signedLessOrEq => flagV f == flagN f || flagZ f
  | .negative => flagN f
  | .positive => !flagN f
  | .signedGreater => !(flagV f == flagN f || flagZ f)
  | .signedGreaterOrEq => !(flagV f == flagN f && !flagZ f)
  | .above => !flagC f && !flagZ f
  | .notOverflow => !flagV f
  | .notZero => !flagZ f
  | .notCarry => !flagC f
  | .always => true

end Sys2Proof
end

