-- ==== Sys2Proof/Config.lean ====
section
/-! DEFINITION. What an implementation or platform fixes (00_scope.md R7), as plain data held in `State.cfg`, and the
free values the spec leaves open (93_implementation_defined.md), as constants without a body. -/

namespace Sys2Proof

/-- What coprocessor n is, COP_KIND(n) of R7. An opaque coprocessor names the registers of its map that the CPU may read
and may write (10_state.md R51). -/
inductive CopKind where
  | fpu
  | other (readable writable : List (BitVec 5))
  deriving DecidableEq, Repr

/-- The kind of a memory access, third argument of MEM_MAP (20_memory.md R76). -/
inductive AccessKind where
  | fetch
  | read
  | write
  deriving DecidableEq, Repr

/-- One region of MEM_MAP: an access of `n` bytes and kind `k` that lies inside it succeeds when `(k, n)` is allowed. -/
structure Region where
  base : Nat
  size : Nat
  allows : List (AccessKind × Nat)
  deriving DecidableEq, Repr

/-- UNASSIGNED_OPCODE_POLICY, MISALIGN_POLICY: raise the exception, or refuse (92_eei_decisions.md D2, D8). -/
inductive Policy where
  | raise
  | refuse
  deriving DecidableEq, Repr

/-- VECTOR_INVALID_POLICY (60_exceptions.md R352, D14, D29). -/
inductive VectorPolicy where
  | modelFault
  | ex4
  deriving DecidableEq, Repr

/-- What a function that writes an FP16 value leaves in the other half of the register (FP16_CONTAINER, R284). -/
inductive HalfFill where
  | zeros
  | ones
  | keep
  deriving DecidableEq, Repr

/-- FP16_CONTAINER: which half of a 32-bit FPU register holds a 16-bit float, and what a write leaves in the other half. -/
structure Fp16Container where
  high : Bool
  fill : HalfFill
  deriving DecidableEq, Repr

/-- The parameters of R7. No step changes them. -/
structure Config where
  /-- COP_PRESENT: bit n says that coprocessor n is connected (R48). -/
  copPresent : BitVec 8
  /-- COP_KIND(n). -/
  copKind : Vector CopKind 8
  /-- MEM_MAP as the list of regions that exist. -/
  memMap : List Region
  /-- MISALIGN_POLICY (20_memory.md R72). -/
  misalign : Policy
  /-- UNASSIGNED_OPCODE_POLICY for CPU opcodes (30_encoding.md R111). -/
  unassigned : Policy
  /-- The same policy for FPU function numbers with no row (47_fpu_unit.md R279). -/
  unlistedFunction : Policy
  /-- VECTOR_INVALID_POLICY. -/
  vectorInvalid : VectorPolicy
  /-- IFETCH_COHERENT (20_memory.md R85). -/
  ifetchCoherent : Bool
  /-- INFO_REGS: the contents of Map 3 (10_state.md R44). -/
  infoRegs : Vector Word 32
  /-- FP16_CONTAINER (47_fpu_unit.md R284). -/
  fp16 : Fp16Container
  deriving DecidableEq, Repr

/-- The k-th free word of a run: a value the spec leaves open, applied to the counter `State.fresh` (log 4). -/
opaque Config.freeWord : Nat → Word

/-- The k-th free choice of a run between two outcomes the spec leaves open (log 4). -/
opaque Config.freeBool : Nat → Bool

/-- Whether the FPU detects tininess before rounding; IEEE 754 leaves the choice to the implementation (log 23). -/
opaque Config.tininessBeforeRounding : Bool

/-- MEM_MAP in which every address exists for every access (the reset value, log 9). -/
def Config.wholeSpace : List Region :=
  [{ base := 0, size := 2 ^ 32,
     allows := [(.fetch, 4), (.read, 1), (.read, 2), (.read, 4), (.write, 1), (.write, 2), (.write, 4)] }]

/-- The parameters of `State.reset`: the spec's default for each parameter that has one (R7), and the choices of logs 8
and 9: an FPU in slot 0, no other coprocessor, memory everywhere. -/
def Config.default : Config where
  copPresent := 0x01
  copKind := #v[.fpu, .other [] [], .other [] [], .other [] [], .other [] [], .other [] [], .other [] [], .other [] []]
  memMap := Config.wholeSpace
  misalign := .raise
  unassigned := .raise
  unlistedFunction := .refuse
  vectorInvalid := .modelFault
  ifetchCoherent := true
  infoRegs := #v[0, 0, 0, 0, 0, 0, 0, 0, 0, 0, 0, 0, 0, 0, 0, 0, 0, 0, 0, 0, 0, 0, 0, 0, 0, 0, 0, 0, 0, 0, 0, 0]
  fp16 := { high := false, fill := .zeros }

end Sys2Proof
end

