-- ==== Sys2Proof/Machine/Float.lean ====
section
/-! DEFINITION. The FPU's conversion helpers FpRoundToFormat, FpRoundIntToFormat and FpRoundToInt, which the source uses and
never defines: IEEE 754 conversions under the four rounding modes, in exact integer arithmetic (47_fpu_unit.md R284 to R287,
93_implementation_defined.md G3, G4, G6; log 22, PRESUMED). -/

namespace Sys2Proof.Machine

/-- The indications a conversion sets in `fpcsr` (R276). No conversion divides, so d has no field here. -/
structure Indications where
  overflow : Bool := false
  underflow : Bool := false
  inexact : Bool := false
  invalid : Bool := false
  deriving DecidableEq, Repr

/-- Number of fraction bits of a format (G3). -/
def fracBits : FloatFormat → Nat
  | .fp16 => 10
  | .fp32 => 23

/-- Number of exponent bits of a format (G3). -/
def expBits : FloatFormat → Nat
  | .fp16 => 5
  | .fp32 => 8

/-- The exponent of the smallest positive value: every finite value is a multiple of 2^minQuantum. -/
def minQuantum : FloatFormat → Int
  | .fp16 => -24
  | .fp32 => -149

/-- The encoding of infinity without its sign: exponent all ones, fraction zero. -/
def infBits (f : FloatFormat) : Nat := (2 ^ expBits f - 1) * 2 ^ fracBits f

/-- The bit number of the sign. -/
def signPlace (f : FloatFormat) : Nat := expBits f + fracBits f

/-- A sign in its place. -/
def signBits (f : FloatFormat) (neg : Bool) : Nat := if neg then 2 ^ signPlace f else 0

/-- What a bit pattern stands for: a NaN (signalling when its top fraction bit is 0), an infinity, or the value
(-1)^neg * mant * 2^exp. -/
inductive FloatValue where
  | nan (signalling : Bool)
  | inf (neg : Bool)
  | finite (neg : Bool) (mant : Nat) (exp : Int)
  deriving DecidableEq, Repr

/-- Interpret the low bits of `v` in a format (G3). -/
def unpackFloat (f : FloatFormat) (v : Nat) : FloatValue :=
  let frac := v % 2 ^ fracBits f
  let e := v / 2 ^ fracBits f % 2 ^ expBits f
  let neg := decide (v / 2 ^ signPlace f % 2 = 1)
  if e = 2 ^ expBits f - 1 then
    if frac = 0 then .inf neg else .nan (decide (frac / 2 ^ (fracBits f - 1) = 0))
  else if e = 0 then .finite neg frac (minQuantum f)
  else .finite neg (2 ^ fracBits f + frac) (minQuantum f + (e - 1 : Nat))

/-- Does rounding add one to the kept part `kept`, when `rem` of `2^d` was cut off (R276)? -/
def roundsUp (rnd : RoundMode) (neg : Bool) (kept rem d : Nat) : Bool :=
  match rnd with
  | .nearestEven => decide (2 ^ d < 2 * rem) || (decide (2 * rem = 2 ^ d) && kept % 2 == 1)
  | .towardZero => false
  | .towardPositive => decide (rem ≠ 0) && !neg
  | .towardNegative => decide (rem ≠ 0) && neg

/-- Round `mant * 2^exp` to a multiple of `2^q`: the multiple, and whether it is inexact. -/
def roundAt (rnd : RoundMode) (neg : Bool) (mant : Nat) (exp q : Int) : Nat × Bool :=
  if q ≤ exp then (mant * 2 ^ (exp - q).toNat, false)
  else
    let d := (q - exp).toNat
    let kept := mant / 2 ^ d
    let rem := mant % 2 ^ d
    (if roundsUp rnd neg kept rem d then kept + 1 else kept, decide (rem ≠ 0))

/-- On overflow: does the mode deliver infinity, or the largest finite value? -/
def overflowsToInf (rnd : RoundMode) (neg : Bool) : Bool :=
  match rnd with
  | .nearestEven => true
  | .towardZero => false
  | .towardPositive => !neg
  | .towardNegative => neg

/-- Round the value (-1)^neg * mant * 2^exp to a format: its encoding and the indications (G4). Underflow is indicated when
the result is tiny and inexact (log 26); before or after rounding is the implementation's (log 23). -/
def roundToFormat (f : FloatFormat) (rnd : RoundMode) (neg : Bool) (mant : Nat) (exp : Int) : Nat × Indications :=
  if mant = 0 then (signBits f neg, {})
  else
    let top := exp + (mant.log2 : Int)
    let q := max (top - fracBits f) (minQuantum f)
    let r := roundAt rnd neg mant exp q
    let bits := (q - minQuantum f).toNat * 2 ^ fracBits f + r.1
    if infBits f ≤ bits then
      (signBits f neg + (if overflowsToInf rnd neg then infBits f else infBits f - 1),
        { overflow := true, inexact := true })
    else
      let emin := minQuantum f + fracBits f
      let unbounded := roundAt rnd neg mant exp (top - fracBits f)
      let reachesMin := decide (top + 1 = emin) && decide (unbounded.1 = 2 ^ (fracBits f + 1))
      let tiny := decide (top < emin) && (!reachesMin || Config.tininessBeforeRounding)
      (signBits f neg + bits, { inexact := r.2, underflow := tiny && r.2 })

/-- A quiet NaN of a format with sign and remaining fraction bits taken from a free word (log 24). -/
def quietNaN (f : FloatFormat) (free : Word) : Nat :=
  let payload := free.toNat % 2 ^ (fracBits f - 1)
  let neg := decide (free.toNat / 2 ^ 31 % 2 = 1)
  signBits f neg + infBits f + 2 ^ (fracBits f - 1) + payload

/-- FpRoundToFormat(v, f, k, rnd): v, in format f, in format k (R285). Of a NaN the result is open (U13, log 24): with f = k
the operand as it is or made quiet, as `choice` says; else a quiet NaN from `free`. A signalling NaN indicates invalid. -/
def convertFormat (f k : FloatFormat) (rnd : RoundMode) (v : Nat) (free : Word) (choice : Bool) : Nat × Indications :=
  match unpackFloat f v with
  | .nan signalling =>
    (if f = k then (if signalling && choice then v + 2 ^ (fracBits f - 1) else v) else quietNaN k free,
      { invalid := signalling })
  | .inf neg => (signBits k neg + infBits k, {})
  | .finite neg mant exp => roundToFormat k rnd neg mant exp

/-- FpRoundIntToFormat(v, i, k, rnd): a 32-bit integer, two's complement when i, in format k (R286). -/
def convertFromInt (k : FloatFormat) (rnd : RoundMode) (signed : Bool) (v : Word) : Nat × Indications :=
  let z : Int := if signed then v.toInt else v.toNat
  roundToFormat k rnd (decide (z < 0)) z.natAbs 0

/-- Does a 32-bit integer of the chosen signedness represent `z`? -/
def fitsInt (signed : Bool) (z : Int) : Bool :=
  if signed then decide (-2 ^ 31 ≤ z) && decide (z < 2 ^ 31) else decide (0 ≤ z) && decide (z < 2 ^ 32)

/-- FpRoundToInt(v, i, f, rnd): v, in format f, rounded to a 32-bit integer (R287). Of a NaN, an infinity or an out-of-range
value the result is any value, here `free`, and invalid is indicated (U10, G6, log 25). -/
def convertToInt (f : FloatFormat) (rnd : RoundMode) (signed : Bool) (v : Nat) (free : Word) : Word × Indications :=
  match unpackFloat f v with
  | .nan _ => (free, { invalid := true })
  | .inf _ => (free, { invalid := true })
  | .finite neg mant exp =>
    let r := roundAt rnd neg mant exp 0
    let z : Int := if neg then -(r.1 : Int) else r.1
    if fitsInt signed z then (BitVec.ofInt 32 z, { inexact := r.2 }) else (free, { invalid := true })

end Sys2Proof.Machine
end

