-- ==== Sys2Proof/Machine/State.lean ====
section
/-! DEFINITION. The state of one Micron CPU and its coprocessors as plain data (10_state.md R20), the reasons a step can
stop, and the state after reset (10_state.md R65, 70_reset_and_hazards.md R390). -/

namespace Sys2Proof.Machine

/-- Memory as a list of (address, byte) pairs in one canonical form: addresses strictly rising and below 2^32, and no byte
equal to what an unlisted address reads as (`Memory.wf`). -/
abbrev Memory := List Host.Cell

/-- What an unlisted address reads as: the spec gives memory no contents at reset (R70), this model 0 (log 1). -/
def Memory.blank : Byte := 0

/-- The canonical form of a memory whose addresses all lie at or above `low`. -/
def Memory.wfFrom (low : Nat) : Memory → Bool
  | [] => true
  | (a, b) :: m => decide (low ≤ a) && decide (a < 2 ^ 32) && (b != Memory.blank) && Memory.wfFrom (a + 1) m

/-- The canonical form of a memory. -/
def Memory.wf (m : Memory) : Bool := Memory.wfFrom 0 m

/-- Run status (46_halt_stop.md R263). -/
inductive RunStatus where
  | running
  | halted
  | stopped
  deriving DecidableEq, Repr

/-- One piece of work a coprocessor has been given and not finished (45_coprocessor_invoke.md R241): a unit instruction,
a CPU write to a status register still pending (47_fpu_unit.md R277), or the settling after a control-word write (R271). -/
inductive UnitWork where
  | instr (f : BitVec 6) (p : BitVec 20)
  | statusWrite (reg : BitVec 5) (v : Word)
  | settle
  deriving DecidableEq, Repr

/-- The state of one coprocessor slot: its control word and queue, and its registers when it is an FPU
(47_fpu_unit.md R271, R272, R275, R276). -/
structure Cop where
  /-- Control word `copctl[n]` (10_state.md R46). -/
  ctl : Word
  /-- Work issued and not finished, oldest first; the unit is busy while it is not empty. -/
  queue : List UnitWork
  /-- `fp0` to `fp15`. -/
  fp : Vector Word 16
  /-- `fpi0` to `fpi7`. -/
  fpi : Vector Word 8
  /-- `fpuop.x`, the unit error number. -/
  opX : BitVec 3
  /-- `fpuop.u`, a unit instruction has been issued. -/
  opU : Bool
  /-- A unit instruction has run since `fpuop` was last 0, so that `fpuop.i` is open; one that may still be in progress stands
  at the head of `queue` (R275, log 19). -/
  opBegun : Bool
  /-- `fpcsr`. -/
  csr : Word
  deriving DecidableEq, Repr

/-- A move of the environment, arriving at an instruction boundary (00_scope.md R18, 60_exceptions.md R354). -/
inductive EnvEvent where
  /-- NMI is signalled (R356). -/
  | nmi
  /-- IRQ vector 32 + v is asserted (R357). -/
  | irq (v : BitVec 5)
  /-- The request for IRQ vector 32 + v is withdrawn (R354). -/
  | irqWithdraw (v : BitVec 5)
  /-- Coprocessor n finishes the oldest piece of its queued work (R246). -/
  | unitRun (n : BitVec 3)
  /-- An opaque coprocessor signals an error (R358). -/
  | unitError (n : BitVec 3)
  /-- From now on simultaneous interrupts are taken in this order of vectors (R359). -/
  | order (vs : List Nat)
  /-- External RESET (70_reset_and_hazards.md R391). -/
  | reset
  deriving DecidableEq, Repr

/-- One entry of the observable port trace (44_io_flags.md R222): port, width in bits and value. -/
inductive IoEvent where
  | input (port : BitVec 8) (width : Nat) (value : Word)
  | output (port : BitVec 8) (width : Nat) (value : Word)
  deriving DecidableEq, Repr

/-- The state. The fields down to `mem` are the spec's, `cfg` the machine's constants, the rest the model's own. -/
structure State where
  /-- General registers x[1] to x[31]; x[0] is the constant 0 and has no storage (R21, R22). -/
  x : Vector Word 31
  /-- Address of the instruction being executed (R24). -/
  pc : Word
  /-- Z, N, V, C in bits 0, 1, 2, 3 (R30). -/
  flags : BitVec 4
  /-- Map 1 register 0: i in bit 0, t in bit 31 (R37). -/
  sysctl : Word
  /-- Map 1 register 2 (R38). -/
  inttab : Word
  /-- Map 1 register 31 (R39). -/
  intret : Word
  /-- Map 2 (R42). -/
  io : Vector Word 32
  /-- Map 4 register 30 (R47). -/
  copen : Word
  /-- The eight coprocessor slots (R46, R51, R55). -/
  cops : Vector Cop 8
  /-- Running, halted or stopped (R55). -/
  status : RunStatus
  /-- An NMI is signalled and not taken (R55). -/
  pendingNmi : Bool
  /-- Entry v: IRQ vector 32 + v is asserted and not taken (R55). -/
  pendingIrq : Vector Bool 32
  /-- Entry n: coprocessor n has signalled an error not yet taken (R55). -/
  pendingUnitError : Vector Bool 8
  /-- Memory (20_memory.md R70). -/
  mem : Memory
  /-- The machine's constants (00_scope.md R7). -/
  cfg : Config
  /-- Byte addresses stored to since launch, for IFETCH_COHERENT (20_memory.md R85, log 13). -/
  storedTo : List Nat
  /-- The environment's events, one list for each coming boundary (log 5). -/
  schedule : List (List EnvEvent)
  /-- The environment's order of simultaneous interrupts (log 7). -/
  intOrder : List Nat
  /-- What the ports will supply to the coming INs (log 6). -/
  portAnswers : List Word
  /-- The port trace so far, oldest first (log 6). -/
  ioTrace : List IoEvent
  /-- How many free values have been used (log 4). -/
  fresh : Nat
  deriving DecidableEq, Repr

/-- Why the machine stops. Both are the spec's "model fault" of 60_exceptions.md R352, "not an architectural event". -/
inductive Fault where
  /-- The vector entry has p = 0 or a non-zero reserved bit, under VECTOR_INVALID_POLICY = modelfault (R352, D14).
  Raised by exception and interrupt entry. Safe: nothing is claimed of what follows. -/
  | invalidVector (vector : Nat)
  /-- A read of the vector entry fails under MEM_MAP, same policy (R352, D29). Raised by exception and interrupt entry.
  Safe. -/
  | vectorReadFault (vector : Nat)
  deriving DecidableEq, Repr

/-- What the model gives no step. -/
inductive Refusal where
  /-- An instruction without a meaning yet: `exec`'s arms only. Safe. -/
  | notModelled (mnemonic : String)
  /-- BSL and BSR: their behaviour text is lost (42_arithmetic.md R186, R187). Raised by their meanings. Safe. -/
  | butterflyShiftLost (mnemonic : String)
  /-- FADD, FSUB, FMUL, FFMA: only their encodings survive (47_fpu_unit.md R288 to R291). Raised by their meanings and by
  the unit that runs them. Safe. -/
  | fpuArithmeticLost (mnemonic : String)
  /-- An FPU function number with no row (R279, default policy). Raised by the unit that runs it. Safe. -/
  | unlistedUnitFunction (f : BitVec 6)
  /-- FPU registers 26 to 31, named and never described (R272). Raised by MOV and FPMOV. Safe. -/
  | fpuRegisterUndescribed (reg : BitVec 5)
  /-- An unassigned opcode under UNASSIGNED_OPCODE_POLICY = refuse (30_encoding.md R111). Raised by the fetch. Safe. -/
  | unassignedOpcode (opcode : BitVec 8)
  /-- A misaligned LD or ST under MISALIGN_POLICY = refuse (20_memory.md R72). Raised by ST and LD. Safe. -/
  | misalignedAccess (addr : Word)
  /-- A fetch of a byte stored to since launch under IFETCH_COHERENT = false (R85). Raised by the fetch. Safe. -/
  | incoherentFetch (addr : Word)
  deriving DecidableEq, Repr

/-- The three outcomes of a step of this machine. -/
abbrev Out := Host.Outcome State Fault Refusal

/-- A coprocessor slot right after reset: control word 0 (R46), nothing queued, registers at the values of log 2. -/
def Cop.reset : Cop where
  ctl := 0
  queue := []
  fp := #v[0, 0, 0, 0, 0, 0, 0, 0, 0, 0, 0, 0, 0, 0, 0, 0]
  fpi := #v[0, 0, 0, 0, 0, 0, 0, 0]
  opX := 0
  opU := false
  opBegun := false
  csr := 0

/-- The machine right after reset (R65, R390). The values the spec calls undefined are 0 (log 2), the parameters are
`Config.default`, memory lists nothing (log 1, log 30). -/
def State.reset : State where
  x := #v[0, 0, 0, 0, 0, 0, 0, 0, 0, 0, 0, 0, 0, 0, 0, 0, 0, 0, 0, 0, 0, 0, 0, 0, 0, 0, 0, 0, 0, 0, 0]
  pc := 0x0000FF00
  flags := 0
  sysctl := 0
  inttab := 0
  intret := 0
  io := #v[0, 0, 0, 0, 0, 0, 0, 0, 0, 0, 0, 0, 0, 0, 0, 0, 0, 0, 0, 0, 0, 0, 0, 0, 0, 0, 0, 0, 0, 0, 0, 0]
  copen := 0
  cops := #v[Cop.reset, Cop.reset, Cop.reset, Cop.reset, Cop.reset, Cop.reset, Cop.reset, Cop.reset]
  status := .running
  pendingNmi := false
  pendingIrq := #v[false, false, false, false, false, false, false, false, false, false, false, false, false, false,
    false, false, false, false, false, false, false, false, false, false, false, false, false, false, false, false,
    false, false]
  pendingUnitError := #v[false, false, false, false, false, false, false, false]
  mem := []
  cfg := Config.default
  storedTo := []
  schedule := []
  intOrder := []
  portAnswers := []
  ioTrace := []
  fresh := 0

end Sys2Proof.Machine
end

