-- ==== Sys2Proof/Machine/Ops.lean ====
section
/-! DEFINITION. The named operations over memory and registers (20_memory.md, 10_state.md), free values, and taking an
exception or interrupt (60_exceptions.md R350 to R353). The ISA has no return instruction: a handler returns by MOV and JMPR
(60_exceptions.md R361). -/

namespace Sys2Proof.Machine

/-! ### Sequencing and free values -/

/-- Go on with `f` when `o` answers a next state. -/
def andThen (o : Out) (f : State → Out) : Out :=
  match o with
  | .next s => f s
  | .fault r => .fault r
  | .refused r => .refused r

/-- `n` free values have been used (log 4). -/
def State.spend (s : State) (n : Nat) : State := { s with fresh := s.fresh + n }

/-- The `n` free words from number `k` on (log 4). -/
def freeWords (k n : Nat) : Vector Word n := ⟨⟨(List.range n).map fun i => Config.freeWord (k + i)⟩, by simp⟩

/-! ### Memory bytes -/

/-- The byte at an address. -/
def Memory.read : Memory → Nat → Byte
  | [], _ => Memory.blank
  | (a', b') :: m, a => if a = a' then b' else Memory.read m a

/-- Store one byte, keeping the canonical form. -/
def Memory.write : Memory → Nat → Byte → Memory
  | [], a, b => if b = Memory.blank then [] else [(a, b)]
  | (a', b') :: m, a, b =>
    if a < a' then (if b = Memory.blank then (a', b') :: m else (a, b) :: (a', b') :: m)
    else if a = a' then (if b = Memory.blank then m else (a, b) :: m)
    else (a', b') :: Memory.write m a b

/-- The byte at a 32-bit address. -/
def State.byteAt (s : State) (a : Word) : Byte := s.mem.read a.toNat

/-- `n` bytes from `a` up, little-endian, addresses modulo 2^32 (R71, R74). -/
def Memory.readLE (m : Memory) (a : Word) : Nat → Word
  | 0 => 0
  | n + 1 => (m.read a.toNat).setWidth 32 ||| (Memory.readLE m (a + 1) n <<< 8)

/-- Store the low `n` bytes of `v` from `a` up, little-endian, addresses modulo 2^32 (R71, R75). -/
def Memory.writeLE (m : Memory) (a v : Word) : Nat → Memory
  | 0 => m
  | n + 1 => Memory.writeLE (m.write a.toNat (v.setWidth 8)) (a + 1) (v >>> 8) n

/-- Insert an address into a strictly rising list of addresses. -/
def insertAddr : List Nat → Nat → List Nat
  | [], a => [a]
  | b :: l, a => if a < b then a :: b :: l else if a = b then b :: l else b :: insertAddr l a

/-- Insert `n` addresses from `a` up, modulo 2^32. -/
def insertAddrs (l : List Nat) (a : Word) : Nat → List Nat
  | 0 => l
  | n + 1 => insertAddrs (insertAddr l a.toNat) (a + 1) n

/-- MEM_MAP(a, n, k): some region holds the access and allows it (R76). -/
def Config.accessible (c : Config) (k : AccessKind) (a : Word) (n : Nat) : Bool :=
  c.memMap.any fun r =>
    decide (r.base ≤ a.toNat) && decide (a.toNat + n ≤ r.base + r.size) && r.allows.contains (k, n)

/-- MemRead(a, n): none when the access faults (R74). -/
def State.load (s : State) (a : Word) (n : Nat) : Option Word :=
  if Config.accessible s.cfg .read a n then some (s.mem.readLE a n) else none

/-- The memory effect of MemWrite(a, n, v) (R75), recording the addresses for R85. -/
def State.storeBytes (s : State) (a : Word) (n : Nat) (v : Word) : State :=
  { s with mem := s.mem.writeLE a v n, storedTo := insertAddrs s.storedTo a n }

/-- An address is aligned for an access of `n` bytes (R72). -/
def aligned (a : Word) (n : Nat) : Bool := a.toNat % n == 0

/-! ### General registers, pc, flags, sysctl -/

/-- The place of x[i] in the register file fits. -/
theorem reg_index_lt (i : BitVec 5) : i.toNat - 1 < 31 := by
  have := i.isLt
  omega

/-- x[i]; x[0] is 0 (R22). -/
def State.reg (s : State) (i : BitVec 5) : Word :=
  if i = 0 then 0 else s.x[i.toNat - 1]'(reg_index_lt i)

/-- x[i] <- v; ignored when i = 0 (R22). -/
def State.setReg (s : State) (i : BitVec 5) (v : Word) : State :=
  if i = 0 then s else { s with x := s.x.set (i.toNat - 1) v (reg_index_lt i) }

/-- The address of the next instruction in sequence, modulo 2^32 (R24, R27). -/
def State.npc (s : State) : Word := s.pc + 4

/-- pc <- npc (R25). -/
def State.advance (s : State) : State := { s with pc := s.npc }

/-- pc <- target. -/
def State.goto (s : State) (target : Word) : State := { s with pc := target }


/-- flags <- f. -/
def State.setFlags (s : State) (f : BitVec 4) : State := { s with flags := f }

/-- flags <- f unless suppressed. -/
def State.setFlagsUnless (s : State) (suppress : Bool) (f : BitVec 4) : State :=
  if suppress then s else s.setFlags f

/-- status <- r (46_halt_stop.md R263). -/
def State.setStatus (s : State) (r : RunStatus) : State := { s with status := r }

/-- `sysctl.i` (R37). -/
def State.sysI (s : State) : Bool := s.sysctl.getLsbD 0

/-- `sysctl.t` (R37). -/
def State.sysT (s : State) : Bool := s.sysctl.getLsbD 31

/-! ### Transfer registers and coprocessor slots -/

/-- io[i] of Map 2 (R42); number 0 is an ordinary register. -/
def State.ioReg (s : State) (i : BitVec 5) : Word := s.io[i.toNat]'i.isLt

/-- io[i] <- v. -/
def State.setIoReg (s : State) (i : BitVec 5) (v : Word) : State := { s with io := s.io.set i.toNat v i.isLt }

/-- A port transfer joins the trace (44_io_flags.md R222). -/
def State.logPort (s : State) (e : IoEvent) : State := { s with ioTrace := s.ioTrace ++ [e] }

/-- What the ports will supply from now on (log 6). -/
def State.setPortAnswers (s : State) (l : List Word) : State := { s with portAnswers := l }

/-- The coprocessor slot n. -/
def State.cop (s : State) (n : BitVec 3) : Cop := s.cops[n.toNat]'n.isLt

/-- Replace the coprocessor slot n. -/
def State.setCop (s : State) (n : BitVec 3) (c : Cop) : State := { s with cops := s.cops.set n.toNat c n.isLt }

/-- The `copen` register itself (R47). -/
def State.setCopen (s : State) (v : Word) : State := { s with copen := v }

/-- COP_KIND(n) (00_scope.md R7). -/
def State.kind (s : State) (n : BitVec 3) : CopKind := s.cfg.copKind[n.toNat]'n.isLt

/-- `coppresent` as it reads, zero-extended (R48). -/
def State.coppresent (s : State) : Word := s.cfg.copPresent.setWidth 32

/-- Enabled(n): present and enabled (45_coprocessor_invoke.md R241). -/
def State.enabled (s : State) (n : BitVec 3) : Bool := s.cfg.copPresent.getLsbD n.toNat && s.copen.getLsbD n.toNat

/-- `cop_busy[n]` (R241): issued work is not finished. -/
def State.busy (s : State) (n : BitVec 3) : Bool := !(s.cop n).queue.isEmpty

/-- pending_unit_error[n] <- b (R55). -/
def State.setUnitError (s : State) (n : BitVec 3) (b : Bool) : State :=
  { s with pendingUnitError := s.pendingUnitError.set n.toNat b n.isLt }

/-! ### RESET -/

/-- A coprocessor slot with an empty queue, `fpuop` 0 and every register undefined: `fp`, `fpi` and `fpcsr` are free words
from number `k` on, 25 of them (10_state.md R51, 47_fpu_unit.md R273). -/
def Cop.undefinedAt (ctl : Word) (k : Nat) : Cop where
  ctl := ctl
  queue := []
  fp := freeWords k 16
  fpi := freeWords (k + 16) 8
  opX := 0
  opU := false
  opBegun := false
  csr := Config.freeWord (k + 24)

/-- RESET while the machine runs (70_reset_and_hazards.md R390 to R392): the stated values, memory and constants kept,
everything the rule calls undefined a free value (log 3). The environment's own fields stay. -/
def State.warmReset (s : State) : State :=
  { s with
    x := freeWords s.fresh 31
    pc := 0x0000FF00
    flags := (Config.freeWord (s.fresh + 64)).setWidth 4
    sysctl := 0
    inttab := 0
    intret := Config.freeWord (s.fresh + 63)
    io := freeWords (s.fresh + 31) 32
    copen := 0
    cops := #v[Cop.undefinedAt 0 (s.fresh + 65), Cop.undefinedAt 0 (s.fresh + 90), Cop.undefinedAt 0 (s.fresh + 115),
      Cop.undefinedAt 0 (s.fresh + 140), Cop.undefinedAt 0 (s.fresh + 165), Cop.undefinedAt 0 (s.fresh + 190),
      Cop.undefinedAt 0 (s.fresh + 215), Cop.undefinedAt 0 (s.fresh + 240)]
    status := .running
    pendingNmi := false
    pendingIrq := State.reset.pendingIrq
    pendingUnitError := State.reset.pendingUnitError
    fresh := s.fresh + 265 }

/-! ### Exceptions and interrupts -/

/-- The exceptions that vector (60_exceptions.md R342). EX[0] never does. -/
inductive Exc where
  | busFault
  | invalidInstruction
  | unalignedTarget
  | consistency
  deriving DecidableEq, Repr

/-- The table entry of an exception (R342). -/
def Exc.number : Exc → Nat
  | .busFault => 1
  | .invalidInstruction => 2
  | .unalignedTarget => 3
  | .consistency => 4

/-- What the vector entry n holds (R341, R352). -/
inductive VectorEntry where
  | target (a : Word)
  | invalid
  | readFault
  deriving DecidableEq, Repr

/-- Read entry n of the interrupt table: two 4-byte reads, low word first (R352, 20_memory.md R78). -/
def State.readVector (s : State) (n : Nat) : VectorEntry :=
  let a := s.inttab + BitVec.ofNat 32 (8 * n)
  match s.load a 4, s.load (a + 4) 4 with
  | some w0, some w1 =>
    if w0.getLsbD 0 = false || w0.getLsbD 1 = true || w1 ≠ 0 then .invalid else .target (w0 &&& 0xFFFFFFFC)
  | some _, none => .readFault
  | none, _ => .readFault

/-- What exception entry writes before control moves: t set, `intret` the instruction's address (R350). -/
def State.saveException (s : State) : State := { s with sysctl := s.sysctl ||| 0x80000000, intret := s.pc }

/-- What interrupt entry writes before control moves: `intret` the address of the next instruction (R353). -/
def State.saveReturn (s : State) : State := { s with intret := s.pc }

/-- TAKING AN EXCEPTION, the one operation for EX[1] to EX[4] raised by the instruction at pc (R350). With t set it is
EX[0]: RESET (R347, R351). Otherwise t is set, intret takes pc and control goes through the table. An entry that is invalid
or unreadable is VECTOR_INVALID_POLICY's: a model fault, or an exception that finds t = 1 and resets (R352). -/
def State.raise (s : State) (e : Exc) : Out :=
  if s.sysT then .next s.warmReset
  else
    match s.readVector e.number, s.cfg.vectorInvalid with
    | .target a, _ => .next (s.saveException.goto a)
    | .invalid, .modelFault => .fault (.invalidVector e.number)
    | .readFault, .modelFault => .fault (.vectorReadFault e.number)
    | .invalid, .ex4 => .next s.warmReset
    | .readFault, .ex4 => .next s.warmReset

/-- Interrupt entry for vector n (R353): intret takes the address of the next instruction, t and i are unchanged. An invalid
entry under the policy EX[4], and an unreadable one under EX[1], is an exception raised there (R352, log 35). -/
def State.interrupt (s : State) (n : Nat) : Out :=
  match s.readVector n, s.cfg.vectorInvalid with
  | .target a, _ => .next (s.saveReturn.goto a)
  | .invalid, .modelFault => .fault (.invalidVector n)
  | .readFault, .modelFault => .fault (.vectorReadFault n)
  | .invalid, .ex4 => s.saveReturn.raise .consistency
  | .readFault, .ex4 => s.saveReturn.raise .busFault

end Sys2Proof.Machine
end

