-- ==== Sys2Proof/Machine/Fpu.lean ====
section
/-! DEFINITION. The floating-point unit (47_fpu_unit.md): its registers, its unit errors and the meanings of its nine unit
functions. A meaning here is what the unit in slot `n` does; the CPU's pc is moved by the CPI that issued it (log 16). -/

namespace Sys2Proof.Machine

/-! ### Unit errors and status registers -/

/-- Signal Unit Error e: fpuop.x <- e, pending_unit_error[n] <- true (R274). -/
def State.signalUnitError (s : State) (n : BitVec 3) (e : BitVec 3) : State :=
  (s.setCop n { s.cop n with opX := e }).setUnitError n true

/-- The bits of `fpcsr` that must be written 0: 20:16 and 29:26 (R276). -/
def csrMustBeZero : Word := 0x3C1F0000

/-- The reserved-preserve bits z of `fpcsr`: 4 and 15:10 (R276). -/
def csrPreserve : Word := 0x0000FC10

/-- The piece of work is a unit instruction. -/
def UnitWork.isInstr : UnitWork → Bool
  | .instr _ _ => true
  | .statusWrite _ _ => false
  | .settle => false

/-- A unit instruction has been issued and is still pending or in progress (R275, u). -/
def issuedPending (q : List UnitWork) : Bool := q.any UnitWork.isInstr

/-- The oldest piece of work is a unit instruction, so that it may be in progress (R275, i). -/
def mayBeInProgress (q : List UnitWork) : Bool := (q.take 1).any UnitWork.isInstr

/-- A write of `v` to `fpuop` taking effect: 0 clears it, but u stays set for an instruction issued after the write and still
in the queue behind it; any other value is Error 3 and changes nothing else (R275, R277, log 40). -/
def State.writeFpuop (s : State) (n : BitVec 3) (v : Word) : State :=
  if v = 0 then
    s.setCop n { s.cop n with opX := 0, opU := issuedPending (s.cop n).queue, opBegun := false }
  else s.signalUnitError n 3

/-- A write of `v` to `fpcsr` taking effect (R276): a must-be-zero bit is Error 3; a write that keeps the z bits is
accepted; one that changes them is, by a free choice, Error 3 or accepted with open z bits (U9, log 20). -/
def State.writeFpcsr (s : State) (n : BitVec 3) (v : Word) : State :=
  if v &&& csrMustBeZero ≠ 0 then s.signalUnitError n 3
  else if (v ^^^ (s.cop n).csr) &&& csrPreserve = 0 then s.setCop n { s.cop n with csr := v }
  else if Config.freeBool s.fresh then (s.spend 2).signalUnitError n 3
  else (s.spend 2).setCop n
    { s.cop n with csr := (v &&& ~~~csrPreserve) ||| (Config.freeWord (s.fresh + 1) &&& csrPreserve) }

/-- What a read of `fpuop` gives (R275): x, u and r as they are, the z bits any value, the i bits any value once a unit
instruction has run since the register was 0, or when one may be in progress, `running` (U8, log 19). -/
def fpuopWord (c : Cop) (r running : Bool) (free : Word) : Word :=
  (c.opX.setWidth 32) ||| (free &&& 0x0000FFF8) ||| (if r then 0x00010000 else 0) ||| (if c.opU then 0x00020000 else 0)
    ||| (if c.opBegun || running then free &&& 0xFFFC0000 else 0)

/-- Read UNIT[i] for a described register i, `r` being the busy bit the reader sees and `running` whether an instruction may be
in progress (R272, R275). Only `fpuop` uses a free value. -/
def State.unitRead (s : State) (n : BitVec 3) (i : BitVec 5) (r running : Bool) : Word × State :=
  let c := s.cop n
  if h : i.toNat < 16 then (c.fp[i.toNat], s)
  else if h' : i.toNat < 24 then (c.fpi[i.toNat - 16], s)
  else if i = 24 then (fpuopWord c r running (Config.freeWord s.fresh), s.spend 1)
  else (c.csr, s)

/-- Write UNIT[i] for a described register i, the status registers under their checks (R272, R274 to R276). -/
def State.unitWrite (s : State) (n : BitVec 3) (i : BitVec 5) (v : Word) : State :=
  let c := s.cop n
  if h : i.toNat < 16 then s.setCop n { c with fp := c.fp.set i.toNat v }
  else if h' : i.toNat < 24 then s.setCop n { c with fpi := c.fpi.set (i.toNat - 16) v }
  else if i = 24 then s.writeFpuop n v
  else s.writeFpcsr n v

/-- A unit register the spec describes: 0 to 25 (R272). -/
def unitRegDescribed (i : BitVec 5) : Bool := decide (i.toNat < 26)

/-- CheckAndThrowPendingUnitErrors(): an indication set while its mask control is 1 is Error 1 (R281). -/
def State.checkPendingErrors (s : State) (n : BitVec 3) : State :=
  let csr := (s.cop n).csr
  if csr.extractLsb' 5 5 &&& csr.extractLsb' 21 5 ≠ 0 then s.signalUnitError n 1 else s

/-! ### Operands of the conversions -/

/-- rnd <- (y = 1) ? r : fpcsr[31:30] (R280). -/
def State.roundingMode (s : State) (n : BitVec 3) (y : Bool) (r : RoundMode) : RoundMode :=
  if y then r else RoundMode.ofBits ((s.cop n).csr.extractLsb' 30 2)

/-- fp[i] of the unit. -/
def Cop.fpReg (c : Cop) (i : BitVec 4) : Word := c.fp[i.toNat]'i.isLt

/-- A floating-point operand: the bits of a register that hold a value of the format (R284, FP16_CONTAINER). -/
def floatOperand (box : Fp16Container) (f : FloatFormat) (v : Word) : Nat :=
  match f with
  | .fp32 => v.toNat
  | .fp16 => if box.high then (v.extractLsb' 16 16).toNat else (v.extractLsb' 0 16).toNat

/-- The register contents that deliver a value of the format, over the old contents (R284, FP16_CONTAINER). -/
def floatResult (box : Fp16Container) (f : FloatFormat) (old : Word) (bits : Nat) : Word :=
  match f with
  | .fp32 => BitVec.ofNat 32 bits
  | .fp16 =>
    let rest (kept : BitVec 16) : BitVec 16 :=
      match box.fill with
      | .zeros => 0
      | .ones => 0xFFFF
      | .keep => kept
    if box.high then BitVec.ofNat 16 bits ++ rest (old.extractLsb' 0 16)
    else rest (old.extractLsb' 16 16) ++ BitVec.ofNat 16 bits

/-- The indication bits o, u, i, v of `fpcsr` (R276): 5, 6, 7, 9. -/
def Indications.bits (x : Indications) : Word :=
  (if x.overflow then 0x20 else 0) ||| (if x.underflow then 0x40 else 0) ||| (if x.inexact then 0x80 else 0)
    ||| (if x.invalid then 0x200 else 0)

/-- The common end of the conversions: UNIT[d] <- v, the indications are added to `fpcsr`, pending errors are checked
(R281, R285). -/
def State.deliver (s : State) (n : BitVec 3) (d : BitVec 4) (v : Word) (x : Indications) : State :=
  let c := s.cop n
  (s.setCop n { c with fp := c.fp.set d.toNat v d.isLt, csr := c.csr ||| x.bits }).checkPendingErrors n

/-! ### The unit functions -/

/-- FPAUSE k: keeps the unit busy for k cycles; no register changes (R282). -/
def execFpause (_n : BitVec 3) (_k : BitVec 4) (st : State) : Out := .next st

/-- FPMOV<c> d, s: a bitwise move when the condition holds of fpcsr.c; a read of `fpuop` sees r = 0 and this very instruction
in progress (R283, R275). A register the spec does not describe is
refused when it would be accessed (R272, log 28). -/
def execFpmov (n : BitVec 3) (s d : BitVec 5) (c : Cond) (st : State) : Out :=
  if c.holds ((st.cop n).csr.extractLsb' 0 4) then
    if !unitRegDescribed s then .refused (.fpuRegisterUndescribed s)
    else if !unitRegDescribed d then .refused (.fpuRegisterUndescribed d)
    else
      let v := st.unitRead n s false true
      .next ((v.2.unitWrite n d v.1).checkPendingErrors n)
  else .next (st.checkPendingErrors n)

/-- CVTF2F d, s (R285). -/
def execCvtf2f (n : BitVec 3) (s d : BitVec 4) (f k : FloatFormat) (y : Bool) (r : RoundMode) (st : State) : Out :=
  let c := st.cop n
  let z := convertFormat f k (st.roundingMode n y r) (floatOperand st.cfg.fp16 f (c.fpReg s))
    (Config.freeWord st.fresh) (Config.freeBool st.fresh)
  .next ((st.spend 1).deliver n d (floatResult st.cfg.fp16 k (c.fpReg d) z.1) z.2)

/-- CVTI2F d, s: the integer is in fp0 to fp7 (R286). -/
def execCvti2f (n : BitVec 3) (s : BitVec 3) (d : BitVec 4) (i : Bool) (k : FloatFormat) (y : Bool) (r : RoundMode)
    (st : State) : Out :=
  let c := st.cop n
  let z := convertFromInt k (st.roundingMode n y r) i (c.fpReg (s.setWidth 4))
  .next (st.deliver n d (floatResult st.cfg.fp16 k (c.fpReg d) z.1) z.2)

/-- CVTF2I d, s: the integer is delivered in fp0 to fp7 (R287). -/
def execCvtf2i (n : BitVec 3) (s : BitVec 4) (d : BitVec 3) (f : FloatFormat) (i : Bool) (y : Bool) (r : RoundMode)
    (st : State) : Out :=
  let c := st.cop n
  let z := convertToInt f (st.roundingMode n y r) i (floatOperand st.cfg.fp16 f (c.fpReg s)) (Config.freeWord st.fresh)
  .next ((st.spend 1).deliver n (d.setWidth 4) z.1 z.2)

/-- FADD: only the encoding survives (R288). -/
def execFadd (_n : BitVec 3) (_d _a _b : BitVec 4) (_y : Bool) (_r : RoundMode) (_st : State) : Out :=
  .refused (.fpuArithmeticLost "FADD")

/-- FSUB: only the encoding survives (R289). -/
def execFsub (_n : BitVec 3) (_d _a _b : BitVec 4) (_y : Bool) (_r : RoundMode) (_st : State) : Out :=
  .refused (.fpuArithmeticLost "FSUB")

/-- FMUL: only the encoding survives (R290). -/
def execFmul (_n : BitVec 3) (_d _a _b : BitVec 4) (_y : Bool) (_r : RoundMode) (_st : State) : Out :=
  .refused (.fpuArithmeticLost "FMUL")

/-- FFMA: only the encoding survives (R291). -/
def execFfma (_n : BitVec 3) (_d _a _b _c : BitVec 4) (_y : Bool) (_r : RoundMode) (_st : State) : Out :=
  .refused (.fpuArithmeticLost "FFMA")

/-- The unit in slot `n` runs a decoded unit instruction. -/
def runUnitInstr (n : BitVec 3) (u : UnitInstr) (st : State) : Out :=
  match u with
  | .fpause k => execFpause n k st
  | .fpmov s d c => execFpmov n s d c st
  | .cvtf2f s d f k y r => execCvtf2f n s d f k y r st
  | .cvti2f s d i k y r => execCvti2f n s d i k y r st
  | .cvtf2i s d f i y r => execCvtf2i n s d f i y r st
  | .fadd d a b y r => execFadd n d a b y r st
  | .fsub d a b y r => execFsub n d a b y r st
  | .fmul d a b y r => execFmul n d a b y r st
  | .ffma d a b c y r => execFfma n d a b c y r st

end Sys2Proof.Machine
end

