-- ==== Sys2Proof/Machine/Unit.lean ====
section
/-! DEFINITION. The coprocessor interface (45_coprocessor_invoke.md R241): the queue of issued work, how a unit finishes it,
Issue and Wait, enabling and disabling (40_und_pause_mov.md R145, 47_fpu_unit.md R273), and CPU writes to a unit's registers
(R271, R277). -/

namespace Sys2Proof.Machine

/-- Replace unit n's queue. -/
def State.setQueue (s : State) (n : BitVec 3) (q : List UnitWork) : State := s.setCop n { s.cop n with queue := q }

/-- A unit instruction has begun, and from here on `fpuop.i` is open (R275, log 19). -/
def State.markBegun (s : State) (n : BitVec 3) : State := s.setCop n { s.cop n with opBegun := true }

/-- The FPU runs function `f` with payload `p`: a decoded function has its effect, an invalid one is Error 2 and nothing
else, one with no row is refused or Error 2 by the policy (47_fpu_unit.md R278, R279). -/
def runFunction (n : BitVec 3) (f : BitVec 6) (p : BitVec 20) (s : State) : Out :=
  match decodeUnit f p, s.cfg.unlistedFunction with
  | .instr u, _ => runUnitInstr n u s
  | .invalid, _ => .next (s.signalUnitError n 2)
  | .unlisted, .refuse => .refused (.unlistedUnitFunction f)
  | .unlisted, .raise => .next (s.signalUnitError n 2)

/-- Unit n does one piece of work already taken from its queue. What an opaque coprocessor does with it changes no state the
CPU can see but through the free values its registers read as and the errors the environment signals (R241, log 18). -/
def runWork (n : BitVec 3) (w : UnitWork) (s : State) : Out :=
  match w, s.kind n with
  | .instr f p, .fpu => runFunction n f p (s.markBegun n)
  | .statusWrite reg v, .fpu => .next (s.unitWrite n reg v)
  | .settle, .fpu => .next s
  | _, .other _ _ => .next s

/-- Unit n finishes the given work in order, each piece leaving the queue as it begins. -/
def drainList (n : BitVec 3) : List UnitWork → State → Out
  | [], s => .next s
  | w :: rest, s => andThen (runWork n w (s.setQueue n rest)) (drainList n rest)

/-- Wait(n): the unit finishes all queued work (R241). -/
def waitUnit (n : BitVec 3) (s : State) : Out := drainList n (s.cop n).queue s

/-- Unit n finishes the oldest piece of its work, when it has any. -/
def runOldest (n : BitVec 3) (s : State) : Out :=
  match (s.cop n).queue with
  | [] => .next s
  | w :: rest => runWork n w (s.setQueue n rest)

/-- Issue(n, f, p20): the unit instruction joins the queue and fpuop.u is set (R241, 47_fpu_unit.md R275). -/
def State.issue (s : State) (n : BitVec 3) (f : BitVec 6) (p : BitVec 20) : State :=
  s.setCop n { s.cop n with queue := (s.cop n).queue ++ [.instr f p], opU := true }

/-- A queue without a status-register write at its very end: a later CPU write disposes of one still pending when no unit
instruction came between (R277). -/
def dropPendingWrite : List UnitWork → List UnitWork
  | [] => []
  | [.statusWrite _ _] => []
  | w :: rest => w :: dropPendingWrite rest

/-- A CPU write to a described register of an FPU: 0 to 23 at once, the status registers through the queue (R277). -/
def State.cpuUnitWrite (s : State) (n : BitVec 3) (i : BitVec 5) (v : Word) : State :=
  if i.toNat < 24 then s.unitWrite n i v
  else s.setQueue n (dropPendingWrite (s.cop n).queue ++ [.statusWrite i v])

/-- CtlWrite(n, v) of an FPU (R271): busy is a Configuration Error, which leaves x 0; queued work is discarded; the word is
stored; fpuop becomes 0; the unit settles. -/
def State.fpuCtlWrite (s : State) (n : BitVec 3) (v : Word) : State :=
  let s1 := if s.busy n then s.setUnitError n true else s
  s1.setCop n { s.cop n with ctl := v, queue := [.settle], opX := 0, opU := false, opBegun := false }

/-- CtlWrite(n, v): an opaque coprocessor's control word holds the last value written (10_state.md R46, log 18). -/
def State.ctlWrite (s : State) (n : BitVec 3) (v : Word) : State :=
  match s.kind n with
  | .fpu => s.fpuCtlWrite n v
  | .other _ _ => s.setCop n { s.cop n with ctl := v }

/-- `copen[n]` goes from 0 to 1 (47_fpu_unit.md R273): fpuop 0, queue empty, no error pending, the FPU's other registers
undefined, the control word kept. -/
def State.enableUnit (s : State) (n : BitVec 3) : State :=
  ((s.setCop n (Cop.undefinedAt (s.cop n).ctl s.fresh)).setUnitError n false).spend 25

/-- `copen[n]` goes from 1 to 0: queued work and an undelivered error are discarded (R273, 60_exceptions.md R354). -/
def State.disableUnit (s : State) (n : BitVec 3) : State := (s.setQueue n []).setUnitError n false

/-- The effect on unit n of writing `v` to `copen` (40_und_pause_mov.md R145). -/
def State.switchUnit (v : Word) (s : State) (n : BitVec 3) : State :=
  if v.getLsbD n.toNat && !s.copen.getLsbD n.toNat then s.enableUnit n
  else if !v.getLsbD n.toNat && s.copen.getLsbD n.toNat then s.disableUnit n
  else s

/-- The eight slots. -/
def slots : List (BitVec 3) := [0, 1, 2, 3, 4, 5, 6, 7]

/-- copen <- v (10_state.md R47, R145). -/
def State.writeCopen (s : State) (v : Word) : State := (slots.foldl (State.switchUnit v) s).setCopen v

end Sys2Proof.Machine
end

