-- ==== Sys2Proof/Machine/Boundary.lean ====
section
/-! DEFINITION. What happens between instructions: the environment's events arrive, then interrupts are sampled
(60_exceptions.md R353 to R359, 46_halt_stop.md R261). -/

namespace Sys2Proof.Machine

/-- Is coprocessor n opaque? -/
def State.opaqueUnit (s : State) (n : BitVec 3) : Bool :=
  match s.kind n with
  | .fpu => false
  | .other _ _ => true

/-- One event of the environment (00_scope.md R18, R354). Only an opaque, enabled coprocessor signals errors of its own
accord: an FPU's come from its work. -/
def applyEvent (e : EnvEvent) (s : State) : Out :=
  match e with
  | .nmi => .next { s with pendingNmi := true }
  | .irq v => .next { s with pendingIrq := s.pendingIrq.set v.toNat true v.isLt }
  | .irqWithdraw v => .next { s with pendingIrq := s.pendingIrq.set v.toNat false v.isLt }
  | .unitRun n => runOldest n s
  | .unitError n => .next (if s.enabled n && s.opaqueUnit n then s.setUnitError n true else s)
  | .order vs => .next { s with intOrder := vs }
  | .reset => .next s.warmReset

/-- Events in the order they are listed. -/
def applyEvents : List EnvEvent → State → Out
  | [], s => .next s
  | e :: es, s => andThen (applyEvent e s) (applyEvents es)

/-- The events scheduled for this boundary arrive (log 5). -/
def arrivals (s : State) : Out :=
  match s.schedule with
  | [] => .next s
  | es :: rest => applyEvents es { s with schedule := rest }

/-- Vector v is pending and its gate is open: NMI always, Unit Errors when t = 0, IRQs when i = 1 and t = 0 (R354). -/
def State.deliverable (s : State) (v : Nat) : Bool :=
  if v = 7 then s.pendingNmi
  else if h : 8 ≤ v ∧ v < 16 then s.pendingUnitError[v - 8] && !s.sysT
  else if h : 32 ≤ v ∧ v < 64 then s.pendingIrq[v - 32] && s.sysI && !s.sysT
  else false

/-- The order R359 recommends: NMI, Unit Errors by ascending unit, IRQs by ascending vector. -/
def recommendedOrder : List Nat := 7 :: (List.range' 8 8 ++ List.range' 32 32)

/-- The interrupt taken at this boundary: the first deliverable one in the environment's order, then in the recommended
one (R355, R359, log 7). -/
def State.chooseInterrupt (s : State) : Option Nat := (s.intOrder ++ recommendedOrder).find? s.deliverable

/-- The pending indication of the source taken is cleared, and only that (R353, R354). -/
def State.clearPending (s : State) (v : Nat) : State :=
  if v = 7 then { s with pendingNmi := false }
  else if h : 8 ≤ v ∧ v < 16 then { s with pendingUnitError := s.pendingUnitError.set (v - 8) false }
  else if h : 32 ≤ v ∧ v < 64 then { s with pendingIrq := s.pendingIrq.set (v - 32) false }
  else s

/-- Take interrupt v: a halted CPU runs again (R261, R353). -/
def takeInterrupt (v : Nat) (s : State) : Out := ((s.clearPending v).setStatus .running).interrupt v

end Sys2Proof.Machine
end

