-- ==== Sys2Proof/Machine/Operands.lean ====
section
/-! DEFINITION. Operand forms (30_encoding.md R104): immediates, the shifted source of the ALU group, access sizes and bit
counts. -/

namespace Sys2Proof.Machine

/-- The immediate of ADDI: the high half, or the low half extended by sign or zero (42_arithmetic.md R180). -/
def addiImm (h s : Bool) (i : BitVec 16) : Word :=
  if h then i ++ 0#16 else if s then i.signExtend 32 else i.setWidth 32

/-- The offset of LRA (41_load_store.md R163). -/
def lraOffset (x : Bool) (o : BitVec 16) : Word := if x then o.signExtend 32 else o.setWidth 32

/-- The byte displacement of JMP (43_branches.md R203). -/
def jmpDisp (o : BitVec 15) : Word := o.signExtend 32 <<< 2

/-- The two sources of ADD, SUB, AND, OR, XOR: p chooses which one is shifted left by s (42_arithmetic.md R188). -/
def State.aluSources (st : State) (a b s : BitVec 5) (p : Bool) : Word × Word :=
  if p then (st.reg a <<< s.toNat, st.reg b) else (st.reg a, st.reg b <<< s.toNat)

/-- The access size 1 << w of ST and LD (41_load_store.md R160). -/
def accessSize (w : BitVec 2) : Nat := 2 ^ w.toNat

/-- The bit count of IN and OUT: 0 encodes 32 (44_io_flags.md R221). -/
def bitCount (w : BitVec 5) : Nat := if w = 0 then 32 else w.toNat

/-- The low `n` bits of a word. -/
def lowBits (v : Word) (n : Nat) : Word := v &&& BitVec.ofNat 32 (2 ^ n - 1)

end Sys2Proof.Machine
end

