-- ==== Sys2Proof/Machine/Arithmetic.lean ====
section
/-! DEFINITION. ADDI, ADD, SUB, AND, OR, XOR, BSL and BSR (42_arithmetic.md). -/

namespace Sys2Proof.Machine

/-- Write a result and, unless suppressed, the flags; go on (R180 to R185). -/
def State.writeResult (st : State) (d : BitVec 5) (suppress : Bool) (res : Word × BitVec 4) : Out :=
  .next ((st.setReg d res.1).setFlagsUnless suppress res.2).advance

/-- A logic operation's result with the flags it leaves (R183 to R185). -/
def State.logicResult (st : State) (dest : Word) : Word × BitVec 4 := (dest, logicFlags st.flags dest)

/-- ADDI (R180). -/
def execAddi (d : BitVec 5) (h c s : Bool) (i : BitVec 16) (st : State) : Out :=
  st.writeResult d c (addFlags (st.reg d) (addiImm h s i))

/-- ADD (R181). -/
def execAdd (d a b : BitVec 5) (c : Bool) (s : BitVec 5) (p : Bool) (st : State) : Out :=
  let src := st.aluSources a b s p
  st.writeResult d c (addFlags src.1 src.2)

/-- SUB: src1 - src2 (R182). -/
def execSub (d a b : BitVec 5) (c : Bool) (s : BitVec 5) (p : Bool) (st : State) : Out :=
  let src := st.aluSources a b s p
  st.writeResult d c (subFlags src.1 src.2)

/-- AND (R183). -/
def execAnd (d a b : BitVec 5) (c : Bool) (s : BitVec 5) (p : Bool) (st : State) : Out :=
  let src := st.aluSources a b s p
  st.writeResult d c (st.logicResult (src.1 &&& src.2))

/-- OR (R184). -/
def execOr (d a b : BitVec 5) (c : Bool) (s : BitVec 5) (p : Bool) (st : State) : Out :=
  let src := st.aluSources a b s p
  st.writeResult d c (st.logicResult (src.1 ||| src.2))

/-- XOR (R185). -/
def execXor (d a b : BitVec 5) (c : Bool) (s : BitVec 5) (p : Bool) (st : State) : Out :=
  let src := st.aluSources a b s p
  st.writeResult d c (st.logicResult (src.1 ^^^ src.2))

/-- BSL: the spec gives it an encoding and no semantics, and asks a model to refuse it (R186, log 27). -/
def execBsl (_d _v _q : BitVec 5) (_c _x _w : Bool) (_r : BitVec 5) (_st : State) : Out :=
  .refused (.butterflyShiftLost "BSL")

/-- BSR: as BSL (R187, log 27). -/
def execBsr (_d _v _q : BitVec 5) (_c _x _w : Bool) (_r : BitVec 5) (_st : State) : Out :=
  .refused (.butterflyShiftLost "BSR")

end Sys2Proof.Machine
end

