-- ==== Sys2Proof/Machine/Branch.lean ====
section
/-! DEFINITION. JMP and JMPR (43_branches.md). -/

namespace Sys2Proof.Machine

/-- A taken jump: the link register, when not r0, takes the return address; pc takes the target (R200). -/
def State.jumpTo (st : State) (l : BitVec 5) (target : Word) : State := (st.setReg l st.npc).goto target

/-- JMP<c> (R203). -/
def execJmp (c : Cond) (l : BitVec 5) (o : BitVec 15) (st : State) : Out :=
  if c.holds st.flags then .next (st.jumpTo l (st.npc + jmpDisp o)) else .next st.advance

/-- JMPR<c>: the target's alignment is checked before the condition, and the target is read before the link is written
(R204). -/
def execJmpr (c : Cond) (l r : BitVec 5) (st : State) : Out :=
  let addr := st.reg r
  if addr.extractLsb' 0 2 ≠ 0 then st.raise .unalignedTarget
  else if c.holds st.flags then .next (st.jumpTo l addr)
  else .next st.advance

end Sys2Proof.Machine
end

