-- ==== Sys2Proof/Machine/Coprocessor.lean ====
section
/-! DEFINITION. The CPI group: 32 instructions, one for each form and slot (45_coprocessor_invoke.md R242 to R245). -/

namespace Sys2Proof.Machine

/-- Invoke function `f` of unit `n` with payload `p` and wait for all its work (R242, R244). A unit that is not present or
not enabled is EX[2]; the unit's errors are interrupts, taken at a later boundary (60_exceptions.md R358). -/
def invokeWait (n : BitVec 3) (f : BitVec 6) (p : BitVec 20) (st : State) : Out :=
  if st.enabled n then andThen (waitUnit n (st.issue n f p)) fun s => .next s.advance
  else st.raise .invalidInstruction

/-- Invoke function `f` of unit `n` with payload `p` without waiting (R243, R245). -/
def invokeNoWait (n : BitVec 3) (f : BitVec 6) (p : BitVec 20) (st : State) : Out :=
  if st.enabled n then .next (st.issue n f p).advance
  else st.raise .invalidInstruction

/-- CPI0 (R242). -/
def execCpi0 (f : BitVec 4) (p : BitVec 20) (st : State) : Out := invokeWait 0 (f.setWidth 6) p st

/-- CPI1 (R242). -/
def execCpi1 (f : BitVec 4) (p : BitVec 20) (st : State) : Out := invokeWait 1 (f.setWidth 6) p st

/-- CPI2 (R242). -/
def execCpi2 (f : BitVec 4) (p : BitVec 20) (st : State) : Out := invokeWait 2 (f.setWidth 6) p st

/-- CPI3 (R242). -/
def execCpi3 (f : BitVec 4) (p : BitVec 20) (st : State) : Out := invokeWait 3 (f.setWidth 6) p st

/-- CPI4 (R242). -/
def execCpi4 (f : BitVec 4) (p : BitVec 20) (st : State) : Out := invokeWait 4 (f.setWidth 6) p st

/-- CPI5 (R242). -/
def execCpi5 (f : BitVec 4) (p : BitVec 20) (st : State) : Out := invokeWait 5 (f.setWidth 6) p st

/-- CPI6 (R242). -/
def execCpi6 (f : BitVec 4) (p : BitVec 20) (st : State) : Out := invokeWait 6 (f.setWidth 6) p st

/-- CPI7 (R242). -/
def execCpi7 (f : BitVec 4) (p : BitVec 20) (st : State) : Out := invokeWait 7 (f.setWidth 6) p st

/-- NCPI0 (R243). -/
def execNcpi0 (f : BitVec 4) (p : BitVec 20) (st : State) : Out := invokeNoWait 0 (f.setWidth 6) p st

/-- NCPI1 (R243). -/
def execNcpi1 (f : BitVec 4) (p : BitVec 20) (st : State) : Out := invokeNoWait 1 (f.setWidth 6) p st

/-- NCPI2 (R243). -/
def execNcpi2 (f : BitVec 4) (p : BitVec 20) (st : State) : Out := invokeNoWait 2 (f.setWidth 6) p st

/-- NCPI3 (R243). -/
def execNcpi3 (f : BitVec 4) (p : BitVec 20) (st : State) : Out := invokeNoWait 3 (f.setWidth 6) p st

/-- NCPI4 (R243). -/
def execNcpi4 (f : BitVec 4) (p : BitVec 20) (st : State) : Out := invokeNoWait 4 (f.setWidth 6) p st

/-- NCPI5 (R243). -/
def execNcpi5 (f : BitVec 4) (p : BitVec 20) (st : State) : Out := invokeNoWait 5 (f.setWidth 6) p st

/-- NCPI6 (R243). -/
def execNcpi6 (f : BitVec 4) (p : BitVec 20) (st : State) : Out := invokeNoWait 6 (f.setWidth 6) p st

/-- NCPI7 (R243). -/
def execNcpi7 (f : BitVec 4) (p : BitVec 20) (st : State) : Out := invokeNoWait 7 (f.setWidth 6) p st

/-- CPI0EF (R244). -/
def execCpi0ef (f : BitVec 6) (p : BitVec 18) (st : State) : Out := invokeWait 0 f (p.setWidth 20) st

/-- CPI1EF (R244). -/
def execCpi1ef (f : BitVec 6) (p : BitVec 18) (st : State) : Out := invokeWait 1 f (p.setWidth 20) st

/-- CPI2EF (R244). -/
def execCpi2ef (f : BitVec 6) (p : BitVec 18) (st : State) : Out := invokeWait 2 f (p.setWidth 20) st

/-- CPI3EF (R244). -/
def execCpi3ef (f : BitVec 6) (p : BitVec 18) (st : State) : Out := invokeWait 3 f (p.setWidth 20) st

/-- CPI4EF (R244). -/
def execCpi4ef (f : BitVec 6) (p : BitVec 18) (st : State) : Out := invokeWait 4 f (p.setWidth 20) st

/-- CPI5EF (R244). -/
def execCpi5ef (f : BitVec 6) (p : BitVec 18) (st : State) : Out := invokeWait 5 f (p.setWidth 20) st

/-- CPI6EF (R244). -/
def execCpi6ef (f : BitVec 6) (p : BitVec 18) (st : State) : Out := invokeWait 6 f (p.setWidth 20) st

/-- CPI7EF (R244). -/
def execCpi7ef (f : BitVec 6) (p : BitVec 18) (st : State) : Out := invokeWait 7 f (p.setWidth 20) st

/-- NCPI0EF (R245). -/
def execNcpi0ef (f : BitVec 6) (p : BitVec 18) (st : State) : Out := invokeNoWait 0 f (p.setWidth 20) st

/-- NCPI1EF (R245). -/
def execNcpi1ef (f : BitVec 6) (p : BitVec 18) (st : State) : Out := invokeNoWait 1 f (p.setWidth 20) st

/-- NCPI2EF (R245). -/
def execNcpi2ef (f : BitVec 6) (p : BitVec 18) (st : State) : Out := invokeNoWait 2 f (p.setWidth 20) st

/-- NCPI3EF (R245). -/
def execNcpi3ef (f : BitVec 6) (p : BitVec 18) (st : State) : Out := invokeNoWait 3 f (p.setWidth 20) st

/-- NCPI4EF (R245). -/
def execNcpi4ef (f : BitVec 6) (p : BitVec 18) (st : State) : Out := invokeNoWait 4 f (p.setWidth 20) st

/-- NCPI5EF (R245). -/
def execNcpi5ef (f : BitVec 6) (p : BitVec 18) (st : State) : Out := invokeNoWait 5 f (p.setWidth 20) st

/-- NCPI6EF (R245). -/
def execNcpi6ef (f : BitVec 6) (p : BitVec 18) (st : State) : Out := invokeNoWait 6 f (p.setWidth 20) st

/-- NCPI7EF (R245). -/
def execNcpi7ef (f : BitVec 6) (p : BitVec 18) (st : State) : Out := invokeNoWait 7 f (p.setWidth 20) st

end Sys2Proof.Machine
end

