-- ==== Sys2Proof/Machine/IoFlags.lean ====
section
/-! DEFINITION. IN, OUT, LDFLAGS and STFLAGS (44_io_flags.md). -/

namespace Sys2Proof.Machine

/-- oracle.port_in(p, n): the environment's next answer, cut to n bits, or a free value when it has given none; the read
joins the port trace (R222, log 6). -/
def State.portIn (st : State) (p : BitVec 8) (n : Nat) : Word × State :=
  match st.portAnswers with
  | v :: rest => (lowBits v n, (st.setPortAnswers rest).logPort (.input p n (lowBits v n)))
  | [] =>
    let v := lowBits (Config.freeWord st.fresh) n
    (v, (st.spend 1).logPort (.input p n v))

/-- oracle.port_out(p, n, v): the value joins the port trace (R222). -/
def State.portOut (st : State) (p : BitVec 8) (n : Nat) (v : Word) : State :=
  st.logPort (.output p n v)

/-- The transfer register after an IN: the new bits enter at the top (R223). -/
def shiftIn (old bits : Word) (n : Nat) : Word := (bits <<< (32 - n)) ||| (old >>> n)

/-- IN (R223). -/
def execInp (d : BitVec 5) (p : BitVec 8) (w : BitVec 5) (st : State) : Out :=
  let n := bitCount w
  let r := st.portIn p n
  .next (r.2.setIoReg d (shiftIn (st.ioReg d) r.1 n)).advance

/-- OUT (R224). -/
def execOut (s : BitVec 5) (p : BitVec 8) (w : BitVec 5) (st : State) : Out :=
  let n := bitCount w
  let v := st.ioReg s
  .next ((st.setIoReg s (v >>> n)).portOut p n (lowBits v n)).advance

/-- LDFLAGS (R225). -/
def execLdflags (d : BitVec 5) (st : State) : Out := .next (st.setReg d (st.flags.setWidth 32)).advance

/-- STFLAGS (R226). -/
def execStflags (s : BitVec 5) (st : State) : Out :=
  .next (st.setFlags ((st.reg s).setWidth 4)).advance

end Sys2Proof.Machine
end

