-- ==== Sys2Proof/Machine/LoadStore.lean ====
section
/-! DEFINITION. ST, LD and LRA (41_load_store.md). Every check comes before every write (60_exceptions.md R349). -/

namespace Sys2Proof.Machine

/-- The address of ST: the base register, decremented by the size for a push (R161). -/
def State.storeAddr (st : State) (d : BitVec 5) (w : BitVec 2) (p : Bool) : Word :=
  if p then st.reg d - BitVec.ofNat 32 (accessSize w) else st.reg d

/-- A misaligned data access: EX[1], or a refusal under MISALIGN_POLICY = refuse (20_memory.md R72). -/
def misalignedAccess (addr : Word) (st : State) : Out :=
  match st.cfg.misalign with
  | .raise => st.raise .busFault
  | .refuse => .refused (.misalignedAccess addr)

/-- ST and PUSH (R161). -/
def execSt (d s : BitVec 5) (w : BitVec 2) (p : Bool) (st : State) : Out :=
  if d = 0 || w = 3 then st.raise .invalidInstruction
  else
    let n := accessSize w
    let addr := st.storeAddr d w p
    if !aligned addr n then misalignedAccess addr st
    else if !Config.accessible st.cfg .write addr n then st.raise .busFault
    else
      let st1 := st.storeBytes addr n (st.reg s)
      .next (if p then st1.setReg d addr else st1).advance

/-- LD and POP: zero-extending; the destination is written after the base update (R162). -/
def execLd (d s : BitVec 5) (w : BitVec 2) (p : Bool) (st : State) : Out :=
  if s = 0 || w = 3 then st.raise .invalidInstruction
  else
    let n := accessSize w
    let addr := st.reg s
    if !aligned addr n then misalignedAccess addr st
    else
      match st.load addr n with
      | none => st.raise .busFault
      | some v =>
        let st1 := if p then st.setReg s (addr + BitVec.ofNat 32 n) else st
        .next (st1.setReg d v).advance

/-- LRA: the address of the next instruction plus an offset (R163). -/
def execLra (d : BitVec 5) (x : Bool) (o : BitVec 16) (st : State) : Out :=
  .next (st.setReg d (st.npc + lraOffset x o)).advance

end Sys2Proof.Machine
end

