-- ==== Sys2Proof/Machine/Maps.lean ====
section
/-! DEFINITION. The register maps as MOV reaches them: Readable, Writable and ValidValue (10_state.md R62 to R64), and the
reads and writes themselves (R35 to R51). -/

namespace Sys2Proof.Machine

/-- What a map says of one of its registers for one direction of access. `undescribed` is an FPU register 26 to 31
(47_fpu_unit.md R272): the spec does not say whether the access is allowed. -/
inductive Access where
  | defined
  | undefined
  | undescribed
  deriving DecidableEq, Repr

/-- Defined or not. -/
def Access.ofBool (b : Bool) : Access := if b then .defined else .undefined

/-- The coprocessor of a map number 8 to 15 (R35). -/
def mapUnit (m : BitVec 4) : BitVec 3 := m.setWidth 3

/-- The control-word number of a Map 4 register below 8 (R46). -/
def ctlUnit (i : BitVec 5) : BitVec 3 := i.setWidth 3

/-- Map 1 defines exactly the registers 0, 2 and 31 (R36). -/
def map1Defines (i : BitVec 5) : Bool := i == 0 || i == 2 || i == 31

/-- The registers of map 8+n, for a coprocessor that must be enabled (R51, R272). -/
def State.unitAccess (s : State) (n : BitVec 3) (i : BitVec 5) (write : Bool) : Access :=
  if !s.enabled n then .undefined
  else
    match s.kind n with
    | .fpu => if unitRegDescribed i then .defined else .undescribed
    | .other readable writable => .ofBool ((if write then writable else readable).contains i)

/-- Readable(m, i) (R62). -/
def State.readable (s : State) (m : BitVec 4) (i : BitVec 5) : Access :=
  match m.toNat with
  | 0 => .defined
  | 1 => .ofBool (map1Defines i)
  | 2 => .defined
  | 3 => .defined
  | 4 => .ofBool (if i.toNat < 8 then s.enabled (ctlUnit i) else i == 30 || i == 31)
  | 5 => .undefined
  | 6 => .undefined
  | 7 => .undefined
  | _ => s.unitAccess (mapUnit m) i false

/-- Writable(m, i) (R63). -/
def State.writable (s : State) (m : BitVec 4) (i : BitVec 5) : Access :=
  match m.toNat with
  | 0 => .defined
  | 1 => .ofBool (map1Defines i)
  | 2 => .defined
  | 3 => .undefined
  | 4 => .ofBool (if i.toNat < 8 then s.enabled (ctlUnit i) else i == 30)
  | 5 => .undefined
  | 6 => .undefined
  | 7 => .undefined
  | _ => s.unitAccess (mapUnit m) i true

/-- Does the coprocessor accept `v`? An FPU by the rule given; an opaque one by a free choice (R64, D39, log 18), which is
the state's next free value. -/
def State.unitAccepts (s : State) (n : BitVec 3) (fpuRule : Bool) : Bool × State :=
  match s.kind n with
  | .fpu => (fpuRule, s)
  | .other _ _ => (Config.freeBool s.fresh, s.spend 1)

/-- ValidValue(m, i, v) for a writable register (R64). -/
def State.validValue (s : State) (m : BitVec 4) (i : BitVec 5) (v : Word) : Bool × State :=
  match m.toNat with
  | 0 => (true, s)
  | 1 =>
    if i = 0 then (v.extractLsb' 1 30 == 0, s)
    else if i = 2 then (v.extractLsb' 0 3 == 0, s)
    else (true, s)
  | 2 => (true, s)
  | 3 => (true, s)
  | 4 =>
    if i.toNat < 8 then s.unitAccepts (ctlUnit i) (v.extractLsb' 1 31 == 0)
    else (v.extractLsb' 8 24 == 0 && v.extractLsb' 0 8 &&& ~~~s.cfg.copPresent == 0, s)
  | 5 => (true, s)
  | 6 => (true, s)
  | 7 => (true, s)
  | _ => s.unitAccepts (mapUnit m) true

/-- A CPU read of a register of map 8+n: an FPU's register as it is at that moment, `fpuop` with the busy bit; an opaque
coprocessor's register any value (R51, U5, log 18). -/
def State.cpuUnitRead (s : State) (n : BitVec 3) (i : BitVec 5) : Word × State :=
  match s.kind n with
  | .fpu => s.unitRead n i (s.busy n) (mayBeInProgress (s.cop n).queue)
  | .other _ _ => (Config.freeWord s.fresh, s.spend 1)

/-- reg[m][i] for a readable register (R35). -/
def State.mapRead (s : State) (m : BitVec 4) (i : BitVec 5) : Word × State :=
  match m.toNat with
  | 0 => (s.reg i, s)
  | 1 => (if i = 0 then s.sysctl else if i = 2 then s.inttab else s.intret, s)
  | 2 => (s.ioReg i, s)
  | 3 => (s.cfg.infoRegs[i.toNat]'i.isLt, s)
  | 4 => (if i.toNat < 8 then (s.cop (ctlUnit i)).ctl else if i = 30 then s.copen else s.coppresent, s)
  | 5 => (0, s)
  | 6 => (0, s)
  | 7 => (0, s)
  | _ => s.cpuUnitRead (mapUnit m) i

/-- reg[m][i] <- v for a writable register and a valid value (R35). A write to an opaque coprocessor's register changes no
state of this model: its reads are free values (log 18). -/
def State.mapWrite (s : State) (m : BitVec 4) (i : BitVec 5) (v : Word) : State :=
  match m.toNat with
  | 0 => s.setReg i v
  | 1 => if i = 0 then { s with sysctl := v } else if i = 2 then { s with inttab := v } else { s with intret := v }
  | 2 => s.setIoReg i v
  | 3 => s
  | 4 => if i.toNat < 8 then s.ctlWrite (ctlUnit i) v else s.writeCopen v
  | 5 => s
  | 6 => s
  | 7 => s
  | _ =>
    match s.kind (mapUnit m) with
    | .fpu => s.cpuUnitWrite (mapUnit m) i v
    | .other _ _ => s

end Sys2Proof.Machine
end

