-- ==== Sys2Proof/Machine/Move.lean ====
section
/-! DEFINITION. MOV between register maps (40_und_pause_mov.md R143, R144). -/

namespace Sys2Proof.Machine

/-- The register check of MOV, made whatever the condition: the non-general register must be readable (r = 0) or writable
(r = 1) in map m (R144). -/
def State.movAccess (st : State) (d s : BitVec 5) (r : Bool) (m : BitVec 4) : Access :=
  if r then st.writable m d else st.readable m s

/-- The transfer of a MOV whose condition holds: read the source, check the value for a destination outside Map 0, write
(R144). -/
def moveValue (ms md : BitVec 4) (d s : BitVec 5) (st : State) : Out :=
  let v := st.mapRead ms s
  let ok := v.2.validValue md d v.1
  if ok.1 then .next (ok.2.mapWrite md d v.1).advance else ok.2.raise .consistency

/-- MOV<c> and MOVL<c> (R144). The latency bit l has no architectural effect (70_reset_and_hazards.md R405). -/
def execMov (d s : BitVec 5) (_l : Bool) (c : Cond) (r : Bool) (m : BitVec 4) (st : State) : Out :=
  match st.movAccess d s r m with
  | .undefined => st.raise .invalidInstruction
  | .undescribed => .refused (.fpuRegisterUndescribed (if r then d else s))
  | .defined =>
    if c.holds st.flags then (if r then moveValue 0 m d s st else moveValue m 0 d s st)
    else .next st.advance

end Sys2Proof.Machine
end

