-- ==== Sys2Proof/Machine/System.lean ====
section
/-! DEFINITION. UND, PAUSE (40_und_pause_mov.md), HALT and STOP (46_halt_stop.md). -/

namespace Sys2Proof.Machine

/-- UND, opcode 0x00: raises EX[2] whatever the payload (R141). -/
def execUnd00 (_payload : BitVec 24) (st : State) : Out := st.raise .invalidInstruction

/-- UND, opcode 0xFF: raises EX[2] whatever the payload (R141). -/
def execUndFF (_payload : BitVec 24) (st : State) : Out := st.raise .invalidInstruction

/-- PAUSE k: spends time only (R142, log 29). -/
def execPause (_k : BitVec 6) (st : State) : Out := .next st.advance

/-- HALT: the CPU waits for an interrupt (R261); waking is `boundary`'s. -/
def execHalt (st : State) : Out := .next (st.advance.setStatus .halted)

/-- STOP: the CPU stops until RESET (R262). -/
def execStop (st : State) : Out := .next (st.advance.setStatus .stopped)

end Sys2Proof.Machine
end

