-- ==== Sys2Proof/Machine/Dispatch.lean ====
section
/-! DEFINITION. One arm for each instruction, each one direct call of its meaning. -/

namespace Sys2Proof.Machine

/-- Execute one instruction. -/
def exec (i : Instr) (s : State) : Host.Outcome State Fault Refusal :=
  match i with
  | .und00 payload => Sys2Proof.Machine.execUnd00 payload s
  | .undFF payload => Sys2Proof.Machine.execUndFF payload s
  | .pause k => Sys2Proof.Machine.execPause k s
  | .mov d src l c r m => Sys2Proof.Machine.execMov d src l c r m s
  | .st d src w p => Sys2Proof.Machine.execSt d src w p s
  | .ld d src w p => Sys2Proof.Machine.execLd d src w p s
  | .lra d x o => Sys2Proof.Machine.execLra d x o s
  | .addi d h c ext imm => Sys2Proof.Machine.execAddi d h c ext imm s
  | .add d a b c sh p => Sys2Proof.Machine.execAdd d a b c sh p s
  | .sub d a b c sh p => Sys2Proof.Machine.execSub d a b c sh p s
  | .and d a b c sh p => Sys2Proof.Machine.execAnd d a b c sh p s
  | .or d a b c sh p => Sys2Proof.Machine.execOr d a b c sh p s
  | .xor d a b c sh p => Sys2Proof.Machine.execXor d a b c sh p s
  | .bsl d v q c x w r => Sys2Proof.Machine.execBsl d v q c x w r s
  | .bsr d v q c x w r => Sys2Proof.Machine.execBsr d v q c x w r s
  | .jmp c l o => Sys2Proof.Machine.execJmp c l o s
  | .jmpr c l r => Sys2Proof.Machine.execJmpr c l r s
  | .inp d p w => Sys2Proof.Machine.execInp d p w s
  | .out src p w => Sys2Proof.Machine.execOut src p w s
  | .ldflags d => Sys2Proof.Machine.execLdflags d s
  | .stflags src => Sys2Proof.Machine.execStflags src s
  | .cpi0 f p => Sys2Proof.Machine.execCpi0 f p s
  | .cpi1 f p => Sys2Proof.Machine.execCpi1 f p s
  | .cpi2 f p => Sys2Proof.Machine.execCpi2 f p s
  | .cpi3 f p => Sys2Proof.Machine.execCpi3 f p s
  | .cpi4 f p => Sys2Proof.Machine.execCpi4 f p s
  | .cpi5 f p => Sys2Proof.Machine.execCpi5 f p s
  | .cpi6 f p => Sys2Proof.Machine.execCpi6 f p s
  | .cpi7 f p => Sys2Proof.Machine.execCpi7 f p s
  | .ncpi0 f p => Sys2Proof.Machine.execNcpi0 f p s
  | .ncpi1 f p => Sys2Proof.Machine.execNcpi1 f p s
  | .ncpi2 f p => Sys2Proof.Machine.execNcpi2 f p s
  | .ncpi3 f p => Sys2Proof.Machine.execNcpi3 f p s
  | .ncpi4 f p => Sys2Proof.Machine.execNcpi4 f p s
  | .ncpi5 f p => Sys2Proof.Machine.execNcpi5 f p s
  | .ncpi6 f p => Sys2Proof.Machine.execNcpi6 f p s
  | .ncpi7 f p => Sys2Proof.Machine.execNcpi7 f p s
  | .cpi0ef f p => Sys2Proof.Machine.execCpi0ef f p s
  | .cpi1ef f p => Sys2Proof.Machine.execCpi1ef f p s
  | .cpi2ef f p => Sys2Proof.Machine.execCpi2ef f p s
  | .cpi3ef f p => Sys2Proof.Machine.execCpi3ef f p s
  | .cpi4ef f p => Sys2Proof.Machine.execCpi4ef f p s
  | .cpi5ef f p => Sys2Proof.Machine.execCpi5ef f p s
  | .cpi6ef f p => Sys2Proof.Machine.execCpi6ef f p s
  | .cpi7ef f p => Sys2Proof.Machine.execCpi7ef f p s
  | .ncpi0ef f p => Sys2Proof.Machine.execNcpi0ef f p s
  | .ncpi1ef f p => Sys2Proof.Machine.execNcpi1ef f p s
  | .ncpi2ef f p => Sys2Proof.Machine.execNcpi2ef f p s
  | .ncpi3ef f p => Sys2Proof.Machine.execNcpi3ef f p s
  | .ncpi4ef f p => Sys2Proof.Machine.execNcpi4ef f p s
  | .ncpi5ef f p => Sys2Proof.Machine.execNcpi5ef f p s
  | .ncpi6ef f p => Sys2Proof.Machine.execNcpi6ef f p s
  | .ncpi7ef f p => Sys2Proof.Machine.execNcpi7ef f p s
  | .halt => Sys2Proof.Machine.execHalt s
  | .stop => Sys2Proof.Machine.execStop s
  | .fpause n k => Sys2Proof.Machine.execFpause n k s
  | .fpmov n src d c => Sys2Proof.Machine.execFpmov n src d c s
  | .cvtf2f n src d f k y r => Sys2Proof.Machine.execCvtf2f n src d f k y r s
  | .cvti2f n src d sg k y r => Sys2Proof.Machine.execCvti2f n src d sg k y r s
  | .cvtf2i n src d f sg y r => Sys2Proof.Machine.execCvtf2i n src d f sg y r s
  | .fadd n d a b y r => Sys2Proof.Machine.execFadd n d a b y r s
  | .fsub n d a b y r => Sys2Proof.Machine.execFsub n d a b y r s
  | .fmul n d a b y r => Sys2Proof.Machine.execFmul n d a b y r s
  | .ffma n d a b c y r => Sys2Proof.Machine.execFfma n d a b c y r s

end Sys2Proof.Machine
end

