-- ==== Sys2Proof/Machine/Cycle.lean ====
section
/-! DEFINITION. One step: arrivals, interrupt sampling, fetch, decode, execute (60_exceptions.md R355, R360;
20_memory.md R73). -/

namespace Sys2Proof.Machine

/-- What a fetch gives. -/
inductive Fetched where
  | word (w : Word)
  | busFault
  | incoherent
  deriving DecidableEq, Repr

/-- One of the `n` bytes from `a` up has been stored to since launch (20_memory.md R85). -/
def storedSince (l : List Nat) (a : Word) : Nat → Bool
  | 0 => false
  | n + 1 => l.contains a.toNat || storedSince l (a + 1) n

/-- Fetch the word at pc (20_memory.md R73, R85). -/
def State.fetch (s : State) : Fetched :=
  if !Config.accessible s.cfg .fetch s.pc 4 then .busFault
  else if !s.cfg.ifetchCoherent && storedSince s.storedTo s.pc 4 then .incoherent
  else .word (s.mem.readLE s.pc 4)

/-- A word that is no instruction: EX[2], or a refusal of an unassigned opcode under that policy (30_encoding.md R111,
R112). -/
def rejectWord (e : DecodeError) (s : State) : Out :=
  match e, s.cfg.unassigned with
  | .reservedBits _, _ => s.raise .invalidInstruction
  | .unassignedOpcode _, .raise => s.raise .invalidInstruction
  | .unassignedOpcode op, .refuse => .refused (.unassignedOpcode op)

/-- Decode a fetched word and execute it. -/
def runWord (w : Word) (s : State) : Out :=
  match decode w with
  | .ok i => exec i s
  | .error e => rejectWord e s

/-- Fetch, decode and execute the instruction at pc, the exceptions in the order of R360. -/
def runInstruction (s : State) : Out :=
  match s.fetch with
  | .busFault => s.raise .busFault
  | .incoherent => .refused (.incoherentFetch s.pc)
  | .word w => runWord w s

/-- After the arrivals: a stopped CPU stays stopped; a deliverable interrupt is taken; a halted CPU without one stays halted;
a running one executes the next instruction (R355, 46_halt_stop.md R261, R262, log 33). -/
def atBoundary (s : State) : Out :=
  match s.status, s.chooseInterrupt with
  | .stopped, _ => .next s
  | .halted, some v => takeInterrupt v s
  | .running, some v => takeInterrupt v s
  | .halted, none => .next s
  | .running, none => runInstruction s

/-- One step of the machine. -/
def cycle (s : State) : Out := andThen (arrivals s) atBoundary

end Sys2Proof.Machine
end

