-- ==== Sys2Proof/Machine/Step.lean ====
section
/-! DEFINITION. The step function, and a state made to fetch a given word. -/

namespace Sys2Proof.Machine

/-- One step: one instruction, one interrupt entry, or one idle moment of a halted or stopped CPU. -/
def step (s : State) : Host.Outcome State Fault Refusal := cycle s

/-- `s` with the instruction whose bits are `w` loaded at pc, as a program loaded from outside would be (log 30): running,
no event arriving and nothing pending, so that the next step fetches and runs it, where MEM_MAP lets the CPU fetch at pc. -/
def State.withFetchWord (s : State) (nbits w : Nat) : State :=
  { s with
    mem := s.mem.writeLE s.pc (BitVec.ofNat 32 (w % 2 ^ min nbits 32)) 4
    storedTo := s.storedTo.filter fun a =>
      !([s.pc, s.pc + 1, s.pc + 2, s.pc + 3].map BitVec.toNat).contains a
    status := .running
    pendingNmi := false
    pendingIrq := State.reset.pendingIrq
    pendingUnitError := State.reset.pendingUnitError
    schedule := [] }

end Sys2Proof.Machine
end

