-- ==== Sys2Proof/Safety.lean ====
section
/-! DEFINITION. What a good state is, and what the outcomes the rules speak of look like, in the terms the statements use. -/

namespace Sys2Proof.Machine

/-- The registers and memory have the form the spec says they always have. -/
structure State.WellShaped (s : State) : Prop where
  /-- Memory is in its canonical form. -/
  memory : s.mem.wf = true
  /-- `pc[1:0] = 0` always (10_state.md R26). -/
  pcAligned : s.pc.extractLsb' 0 2 = 0
  /-- The reserved bits 30:1 of `sysctl` read 0 (R37). -/
  sysctlReserved : s.sysctl.extractLsb' 1 30 = 0
  /-- The reserved bits 2:0 of `inttab` read 0 (R38). -/
  inttabReserved : s.inttab.extractLsb' 0 3 = 0
  /-- The reserved bits 31:8 of `copen` read 0 (R47). -/
  copenReserved : s.copen.extractLsb' 8 24 = 0
  /-- Only present coprocessors are enabled (R47). -/
  copenPresent : s.copen.extractLsb' 0 8 &&& ~~~s.cfg.copPresent = 0

/-- A disabled coprocessor has no queued work and no undelivered error: of an FPU the spec's rule (47_fpu_unit.md R273), of the
error any unit's (60_exceptions.md R354), of an opaque coprocessor's work the model's choice (log 18). -/
def State.DisabledUnitsIdle (s : State) : Prop :=
  ∀ n : BitVec 3, s.copen.getLsbD n.toNat = false →
    (s.cop n).queue = [] ∧ s.pendingUnitError[n.toNat]'n.isLt = false

/-- Nothing of the environment's arrives at the coming boundary, and no interrupt is deliverable there: the next step of a
running CPU is an instruction (60_exceptions.md R355). -/
def State.Undisturbed (s : State) : Prop := s.schedule = [] ∧ s.chooseInterrupt = none

/-! ### Exceptions and interrupts -/

/-- Entry n of the interrupt table is present and valid and holds the handler address `a`: bit 0 set, bit 1 clear, the
second word zero (60_exceptions.md R341). -/
def State.VectorTo (s : State) (n : Nat) (a : Word) : Prop :=
  a.extractLsb' 0 2 = 0 ∧ s.load (s.inttab + BitVec.ofNat 32 (8 * n)) 4 = some (a ||| 1) ∧
    s.load (s.inttab + BitVec.ofNat 32 (8 * n) + 4) 4 = some 0

/-- Both words of entry n can be read, and it has p = 0, a set reserved bit or a non-zero second word (R352). -/
def State.InvalidEntry (s : State) (n : Nat) : Prop :=
  ∃ w0 w1, s.load (s.inttab + BitVec.ofNat 32 (8 * n)) 4 = some w0 ∧
    s.load (s.inttab + BitVec.ofNat 32 (8 * n) + 4) 4 = some w1 ∧ (w0.extractLsb' 0 2 ≠ 1 ∨ w1 ≠ 0)

/-- A word of entry n cannot be read (R352). -/
def State.UnreadableEntry (s : State) (n : Nat) : Prop :=
  s.load (s.inttab + BitVec.ofNat 32 (8 * n)) 4 = none ∨ s.load (s.inttab + BitVec.ofNat 32 (8 * n) + 4) 4 = none

/-- An exception taken normally with its handler at `a`: t set, the instruction's address saved, control at the handler, and
nothing else changed (R348, R350). -/
def State.enterException (s : State) (a : Word) : State :=
  { s with sysctl := s.sysctl ||| 0x80000000, intret := s.pc, pc := a }

/-- `t` is what RESET makes of `s`, as far as R390 says. -/
structure State.IsReset (s t : State) : Prop where
  pc : t.pc = 0x0000FF00
  sysctl : t.sysctl = 0
  inttab : t.inttab = 0
  copen : t.copen = 0
  ctl : ∀ n, (t.cop n).ctl = 0
  queue : ∀ n, (t.cop n).queue = []
  status : t.status = .running
  nmi : t.pendingNmi = false
  irq : ∀ v : Fin 32, t.pendingIrq[v] = false
  unitError : ∀ n : Fin 8, t.pendingUnitError[n] = false
  memory : ∀ a, t.byteAt a = s.byteAt a
  constants : t.cfg = s.cfg

/-- External RESET arrives at the coming boundary (70_reset_and_hazards.md R391). -/
def State.ResetArrives (s : State) : Prop := ∃ es later, s.schedule = es :: later ∧ EnvEvent.reset ∈ es

/-- The coming step executes the instruction `i`: after the arrivals the CPU runs, no interrupt is taken, and the word fetched
at pc decodes to `i` (R355, R360). -/
def State.Executes (s : State) (i : Instr) : Prop :=
  ∃ u w, arrivals s = .next u ∧ u.status = .running ∧ u.chooseInterrupt = none ∧ u.fetch = .word w ∧ decode w = .ok i

/-- A source of interrupt v is pending and its gate is open (R354). -/
def State.GateOpen (s : State) (v : Nat) : Prop :=
  (v = 7 ∧ s.pendingNmi = true) ∨
  (∃ u : Fin 8, v = 8 + u ∧ s.pendingUnitError[u] = true ∧ s.sysT = false) ∨
  (∃ q : Fin 32, v = 32 + q ∧ s.pendingIrq[q] = true ∧ s.sysI = true ∧ s.sysT = false)

/-! ### Register maps -/

/-- Readable(m, i) as 10_state.md R62 words it; Map 0 is always readable. -/
def State.ReadableRule (s : State) (m : BitVec 4) (i : BitVec 5) : Prop :=
  m = 0 ∨ (m = 1 ∧ (i = 0 ∨ i = 2 ∨ i = 31)) ∨ m = 2 ∨ m = 3 ∨
  (m = 4 ∧ ((∃ n : BitVec 3, i = n.setWidth 5 ∧ s.enabled n = true) ∨ i = 30 ∨ i = 31)) ∨
  (∃ n : BitVec 3, m = 1#1 ++ n ∧ s.enabled n = true ∧
    ((s.kind n = .fpu ∧ i.toNat < 26) ∨ ∃ rd wr, s.kind n = .other rd wr ∧ i ∈ rd))

/-- Writable(m, i) as 10_state.md R63 words it; Map 0 is always writable. -/
def State.WritableRule (s : State) (m : BitVec 4) (i : BitVec 5) : Prop :=
  m = 0 ∨ (m = 1 ∧ (i = 0 ∨ i = 2 ∨ i = 31)) ∨ m = 2 ∨
  (m = 4 ∧ ((∃ n : BitVec 3, i = n.setWidth 5 ∧ s.enabled n = true) ∨ i = 30)) ∨
  (∃ n : BitVec 3, m = 1#1 ++ n ∧ s.enabled n = true ∧
    ((s.kind n = .fpu ∧ i.toNat < 26) ∨ ∃ rd wr, s.kind n = .other rd wr ∧ i ∈ wr))

/-- A register of an enabled FPU that the spec names and does not describe, 26 to 31 (47_fpu_unit.md R272). -/
def State.Undescribed (s : State) (m : BitVec 4) (i : BitVec 5) : Prop :=
  ∃ n : BitVec 3, m = 1#1 ++ n ∧ s.enabled n = true ∧ s.kind n = .fpu ∧ 26 ≤ i.toNat

/-! ### Frames -/

/-- `t` is `s` but for general registers, flags and pc: every byte of memory, every special register, transfer register and
coprocessor slot, every pending indication and every field of the environment reads as before. -/
def State.SameBeyondCore (s t : State) : Prop :=
  (∀ a, t.byteAt a = s.byteAt a) ∧ t = { s with x := t.x, flags := t.flags, pc := t.pc }

/-- `t` is `s` but for coprocessor `n`'s slot and pending error and the free-value counter: all CPU registers, memory and the
other coprocessors are as before. -/
def State.SameBeyondUnit (n : BitVec 3) (s t : State) : Prop :=
  (∀ a, t.byteAt a = s.byteAt a) ∧
  t = { s with cops := t.cops, pendingUnitError := t.pendingUnitError, fresh := t.fresh } ∧
  ∀ m : BitVec 3, m ≠ n →
    t.cop m = s.cop m ∧ t.pendingUnitError[m.toNat]'m.isLt = s.pendingUnitError[m.toNat]'m.isLt

/-- `z` is the integer that num / den, for den > 0, rounds to under a mode (47_fpu_unit.md R276, R280): the nearest, on a tie
the even one; the truncated quotient; the least one not below; the greatest one not above. -/
def RoundsTo (r : RoundMode) (num : Int) (den : Nat) (z : Int) : Prop :=
  match r with
  | .nearestEven => 2 * (num - z * den).natAbs ≤ den ∧ (2 * (num - z * den).natAbs = den → z % 2 = 0)
  | .towardZero => z = num.tdiv den
  | .towardPositive => num ≤ z * den ∧ (z - 1) * den < num
  | .towardNegative => z * den ≤ num ∧ num < (z + 1) * den

/-- An indication of `fpcsr` is set whose mask control is 1 (47_fpu_unit.md R281). -/
def unmaskedIndication (csr : Word) : Prop :=
  ∃ k : Fin 5, csr.getLsbD (5 + k) = true ∧ csr.getLsbD (21 + k) = true

/-- What the pending-error check leaves in unit `n` of `t`, when `x` and `e` were its error number and pending error before:
Error 1 exactly when an unmasked indication is set (R281). -/
def State.CheckedErrors (n : BitVec 3) (x : BitVec 3) (e : Bool) (t : State) : Prop :=
  (unmaskedIndication (t.cop n).csr → (t.cop n).opX = 1 ∧ t.pendingUnitError[n.toNat]'n.isLt = true) ∧
  (¬ unmaskedIndication (t.cop n).csr → (t.cop n).opX = x ∧ t.pendingUnitError[n.toNat]'n.isLt = e)

end Sys2Proof.Machine
end

