-- ==== Sys2Proof/Certificates/Slice0/Obligations.lean ====
section
/-! DEFINITION. The statements for the provers. Rules are the spec's (R<n>, file in the entry of OBLIGATIONS.json); "log <n>"
marks a clause that is the model's choice. -/

section Statements

open Sys2Proof Sys2Proof.Machine

/-! ### Reset and the shape of the state -/

/-- R65: every value the spec gives for reset. -/
def Obligations.ResetState : Prop :=
  let s := State.reset
  s.pc = 0x0000FF00 ∧ s.sysctl = 0 ∧ s.inttab = 0 ∧ (∀ i, (s.mapRead 3 i).1 = 0) ∧
  (∀ n, (s.cop n).ctl = 0 ∧ s.enabled n = false ∧ (s.cop n).queue = []) ∧ s.copen = 0 ∧
  (s.mapRead 4 31).1 = s.cfg.copPresent.setWidth 32 ∧ s.status = .running ∧ s.pendingNmi = false ∧
  (∀ v : Fin 32, s.pendingIrq[v] = false) ∧ (∀ n : Fin 8, s.pendingUnitError[n] = false)

/-- The reset state satisfies the two invariants below: the form of the state, and no disabled coprocessor with work or an
error. -/
def Obligations.ResetMeetsInvariants : Prop := State.reset.WellShaped ∧ State.reset.DisabledUnitsIdle

/-- Every step keeps memory canonical, pc aligned and the reserved bits of `sysctl`, `inttab` and `copen` zero (R26, R37, R38,
R47). -/
def Obligations.StepKeepsWellShaped : Prop :=
  ∀ s t : State, s.WellShaped → step s = .next t → t.WellShaped

/-- Every step leaves every disabled coprocessor without work and without an undelivered error. Of an FPU that is R273's and of
an undelivered error R354's; that an opaque coprocessor loses its queued work with its enable bit is the model's choice, which
R145 leaves to the coprocessor (log 18). -/
def Obligations.StepKeepsDisabledUnitsIdle : Prop :=
  ∀ s t : State, s.DisabledUnitsIdle → step s = .next t → t.DisabledUnitsIdle

/-- The external RESET and an exception under t = 1 both give the Initial State, in every run status (R390, R391, R351). The third
clause, that what follows depends on no register's old value, is the model's choice of free values that do not depend on the
state (log 3, log 4): by R392 an undefined register may or may not have kept its old value. -/
def Obligations.ResetForgetsRegisters : Prop :=
  (∀ s : State, ∃ t, applyEvent .reset s = .next t ∧ s.IsReset t) ∧
  (∀ (s : State) (e : Exc), s.sysT = true → s.raise e = applyEvent .reset s) ∧
  (∀ s s' : State, s'.mem = s.mem → s'.cfg = s.cfg → s'.storedTo = s.storedTo → s'.schedule = s.schedule →
    s'.intOrder = s.intOrder → s'.portAnswers = s.portAnswers → s'.ioTrace = s.ioTrace → s'.fresh = s.fresh →
    applyEvent .reset s' = applyEvent .reset s)

/-! ### Steps, exceptions and interrupts -/

/-- A running CPU that nothing disturbs executes the instruction its four bytes at pc decode to (R73, R355). -/
def Obligations.StepRunsDecodedInstruction : Prop :=
  ∀ (s : State) (i : Instr) (rest : List Byte), s.status = .running → s.Undisturbed →
    Config.accessible s.cfg .fetch s.pc 4 = true → s.cfg.ifetchCoherent = true →
    decodeBytes [s.byteAt s.pc, s.byteAt (s.pc + 1), s.byteAt (s.pc + 2), s.byteAt (s.pc + 3)] = some (i, rest) →
    step s = exec i s

/-- A fetch that MEM_MAP rejects is EX[1]; a word with a non-zero must-be-zero bit is EX[2]; an unassigned opcode is EX[2], or
refused by name under UNASSIGNED_OPCODE_POLICY = refuse (R73, R111, R112, R360). -/
def Obligations.StepRejectsBadFetch : Prop :=
  ∀ s : State, s.status = .running → s.Undisturbed →
    (Config.accessible s.cfg .fetch s.pc 4 = false → step s = s.raise .busFault) ∧
    (∀ w, Config.accessible s.cfg .fetch s.pc 4 = true → s.cfg.ifetchCoherent = true →
      wordOfBytes [s.byteAt s.pc, s.byteAt (s.pc + 1), s.byteAt (s.pc + 2), s.byteAt (s.pc + 3)] = some w →
      (∀ op, decode w = .error (.reservedBits op) → step s = s.raise .invalidInstruction) ∧
      (∀ op, decode w = .error (.unassignedOpcode op) →
        step s = if s.cfg.unassigned = .raise then s.raise .invalidInstruction else .refused (.unassignedOpcode op)))

/-- R350: exception entry sets t, saves pc in `intret` and goes through entry n; under t = 1 the exception is EX[0] and the
machine resets (R347). -/
def Obligations.ExceptionEntry : Prop :=
  ∀ (s : State) (e : Exc),
    (s.sysT = true → ∃ t, s.raise e = .next t ∧ s.IsReset t) ∧
    (∀ a, s.sysT = false → s.VectorTo e.number a → s.raise e = .next (s.enterException a))

/-- A table entry that is invalid or cannot be read, met at exception entry, stops the machine under the default policy and
resets it under EX[4]. Met at interrupt entry it stops the machine under the default policy; under EX[4] an invalid one raises
EX[4] and an unreadable one EX[1], with the interrupted address saved, which with t = 1 resets (R352, log 12, log 35). -/
def Obligations.BadVectorEntry : Prop :=
  ∀ s : State,
    (∀ e : Exc, s.sysT = false →
      (s.InvalidEntry e.number →
        (s.cfg.vectorInvalid = .modelFault → s.raise e = .fault (.invalidVector e.number)) ∧
        (s.cfg.vectorInvalid = .ex4 → ∃ t, s.raise e = .next t ∧ s.IsReset t)) ∧
      (s.UnreadableEntry e.number →
        (s.cfg.vectorInvalid = .modelFault → s.raise e = .fault (.vectorReadFault e.number)) ∧
        (s.cfg.vectorInvalid = .ex4 → ∃ t, s.raise e = .next t ∧ s.IsReset t))) ∧
    ∀ v, s.status ≠ .stopped → s.schedule = [] → s.chooseInterrupt = some v →
      let raisesInstead (n : Nat) : Prop :=
        (s.sysT = true → ∃ t, step s = .next t ∧ s.IsReset t) ∧
        (∀ a, s.sysT = false → s.VectorTo n a →
          ∃ t, step s = .next t ∧ t = { s.enterException a with
            status := .running, pendingNmi := t.pendingNmi, pendingIrq := t.pendingIrq,
            pendingUnitError := t.pendingUnitError })
      (s.InvalidEntry v →
        (s.cfg.vectorInvalid = .modelFault → step s = .fault (.invalidVector v)) ∧
        (s.cfg.vectorInvalid = .ex4 → raisesInstead 4)) ∧
      (s.UnreadableEntry v →
        (s.cfg.vectorInvalid = .modelFault → step s = .fault (.vectorReadFault v)) ∧
        (s.cfg.vectorInvalid = .ex4 → raisesInstead 1))

/-- R353 and R261: at the boundary the chosen interrupt saves the address of the next instruction, clears its own pending
indication, leaves `sysctl` alone, and wakes a halted CPU. -/
def Obligations.InterruptEntry : Prop :=
  ∀ (s : State) (v : Nat) (a : Word), s.status ≠ .stopped → s.schedule = [] → s.chooseInterrupt = some v →
    s.VectorTo v a →
    ∃ t, step s = .next t ∧ t.intret = s.pc ∧ t.pc = a ∧ t.status = .running ∧ t.sysctl = s.sysctl ∧
      (t.pendingNmi = (s.pendingNmi && decide (v ≠ 7))) ∧
      (∀ u : Fin 8, t.pendingUnitError[u] = (s.pendingUnitError[u] && decide (v ≠ 8 + u))) ∧
      (∀ q : Fin 32, t.pendingIrq[q] = (s.pendingIrq[q] && decide (v ≠ 32 + q))) ∧
      (∀ j, t.reg j = s.reg j) ∧ t.flags = s.flags ∧ (∀ b, t.byteAt b = s.byteAt b) ∧
      t = { s with intret := t.intret, pc := t.pc, status := t.status, pendingNmi := t.pendingNmi,
                   pendingIrq := t.pendingIrq, pendingUnitError := t.pendingUnitError }

/-- R354, R355: an interrupt is chosen exactly when some source is pending with its gate open, and the chosen one is such a
source, whatever order the environment prefers. -/
def Obligations.InterruptGates : Prop :=
  ∀ s : State, (∀ v, s.chooseInterrupt = some v → s.GateOpen v) ∧
    ((∃ v, s.GateOpen v) → ∃ v, s.chooseInterrupt = some v)

/-- An IRQ that arrives at a boundary with both gates open and nothing else pending is taken there, before the next instruction
is fetched (R355, R357, R360). -/
def Obligations.ArrivingIrqIsTaken : Prop :=
  ∀ (s : State) (q : BitVec 5) (a : Word) (later : List (List EnvEvent)), s.status ≠ .stopped →
    s.schedule = [.irq q] :: later → s.sysI = true → s.sysT = false → s.pendingNmi = false →
    (∀ u : Fin 8, s.pendingUnitError[u] = false) → (∀ r : Fin 32, s.pendingIrq[r] = false) →
    s.VectorTo (32 + q.toNat) a →
    ∃ t, step s = .next t ∧ t.pc = a ∧ t.intret = s.pc ∧ t.status = .running ∧ t.sysctl = s.sysctl ∧
      (∀ r : Fin 32, t.pendingIrq[r] = false) ∧ t.schedule = later ∧ (∀ j, t.reg j = s.reg j) ∧
      t.flags = s.flags ∧ ∀ b, t.byteAt b = s.byteAt b

/-- A halted CPU whose pending sources are all gated stays as it is; a stopped one executes nothing and takes no interrupt at any
boundary at which no RESET arrives (R261, R262, R263). -/
def Obligations.HaltedAndStoppedWait : Prop :=
  (∀ s : State, s.status = .halted → s.schedule = [] → (∀ v, ¬ s.GateOpen v) → step s = .next s) ∧
  (∀ s t : State, s.status = .stopped → ¬ s.ResetArrives → step s = .next t →
    t.status = .stopped ∧ t.pc = s.pc ∧ t.x = s.x ∧ t.flags = s.flags ∧ t.sysctl = s.sysctl ∧ t.inttab = s.inttab ∧
      t.intret = s.intret ∧ t.io = s.io ∧ t.copen = s.copen ∧ ∀ a, t.byteAt a = s.byteAt a)

/-- Over every step, arrivals and interrupt entry included, t is cleared only by an external RESET that arrives, by the RESET of an
exception under t = 1, or by a MOV to `sysctl` that the step executes (R37, R347, R353, R391). -/
def Obligations.OnlyMovAndResetClearT : Prop :=
  ∀ s t : State, step s = .next t → s.sysT = true → t.sysT = false →
    s.ResetArrives ∨ s.IsReset t ∨ ∃ r l c, s.Executes (.mov 0 r l c true 1)

/-- Over every step, arrivals and interrupt entry included, the flags change only by an external RESET that arrives, by the RESET of
an exception, or by an ADDI, ADD, SUB, AND, OR or XOR without the suppress bit or an STFLAGS that the step executes (R31). -/
def Obligations.FlagsWriters : Prop :=
  ∀ s t : State, step s = .next t → t.flags ≠ s.flags →
    s.ResetArrives ∨ s.IsReset t ∨
    ∃ i, s.Executes i ∧
      ((∃ d h x k, i = .addi d h false x k) ∨ (∃ d a b k p, i = .add d a b false k p) ∨
       (∃ d a b k p, i = .sub d a b false k p) ∨ (∃ d a b k p, i = .and d a b false k p) ∨
       (∃ d a b k p, i = .or d a b false k p) ∨ (∃ d a b k p, i = .xor d a b false k p) ∨ ∃ r, i = .stflags r)

/-- R241: whatever a unit does with its queued work, CPU registers, flags, memory and the other units stay as they are. -/
def Obligations.UnitsTouchNothingElse : Prop :=
  ∀ (n : BitVec 3) (s t : State), applyEvent (.unitRun n) s = .next t → s.SameBeyondUnit n t

/-! ### Encodings -/

/-- Words written out from the spec's encodings, at least one for each format of R102 and each payload form of R278, decode to the
instruction they stand for. -/
def Obligations.DecodeWrittenWords : Prop :=
  decode 0x123456FF = .ok (.undFF 0x123456) ∧ decode 0x00000501 = .ok (.pause 5) ∧
  decode 0x05E3E502 = .ok (.mov 5 31 false .always false 1) ∧ decode 0x80083E03 = .ok (.st 30 1 2 true) ∧
  decode 0x800BC404 = .ok (.ld 4 30 2 true) ∧ decode 0xFFFC2506 = .ok (.lra 5 true 0xFFFC) ∧
  decode 0x12346108 = .ok (.addi 1 true true false 0x1234) ∧ decode 0x01042109 = .ok (.add 1 1 1 false 1 false) ∧
  decode 0x8888230E = .ok (.bsl 3 1 2 true false false 17) ∧ decode 0x8C08230F = .ok (.bsr 3 1 2 false false true 17) ∧
  decode 0xFFFA0D10 = .ok (.jmp .notZero 0 0x7FFD) ∧ decode 0x003E0F11 = .ok (.jmpr .always 0 31) ∧
  decode 0x40006114 = .ok (.inp 1 3 8) ∧ decode 0x00000719 = .ok (.stflags 7) ∧
  decode 0x00000F2F = .ok (.ncpi7 15 0) ∧ decode 0xAAAAA132 = .ok (.cpi2ef 0x21 0x2AAAA) ∧
  decode 0x00000041 = .ok .stop ∧ decodeUnit 0 0x00005 = .instr (.fpause 5) ∧ decodeUnit 1 0x03CE3 = .instr (.fpmov 3 7 .always) ∧
  decodeUnit 4 0x00121 = .instr (.cvtf2f 1 2 .fp32 .fp16 false .nearestEven) ∧
  decodeUnit 5 0x00510 = .instr (.cvti2f 0 1 true .fp32 false .nearestEven) ∧
  decodeUnit 6 0x60532 = .instr (.cvtf2i 2 3 .fp32 true true .towardZero) ∧
  decodeUnit 8 0xA0321 = .instr (.fadd 1 2 3 true .towardPositive) ∧
  decodeUnit 11 0x04321 = .instr (.ffma 1 2 3 4 false .nearestEven)

/-- Decoding an encoded CPU instruction gives it back, with every operand at every value; the unit decodes an encoded unit
function to it, and a unit function's word is the CPIn that issues it. -/
def Obligations.DecodeEncode : Prop :=
  (∀ i : Instr, i.toUnit = none → decode (encode i) = .ok i) ∧
  ∀ (n : BitVec 3) (u : UnitInstr),
    decodeUnit (encodeUnit u).1 (encodeUnit u).2 = .instr u ∧
    ∃ f : BitVec 4, f.setWidth 6 = (encodeUnit u).1 ∧
      decode (encode (u.toInstr n)) = .ok (Instr.cpiOf n f (encodeUnit u).2)

/-- Every word and every unit payload that decodes is the encoding of what it decodes to: no two words share a meaning, and no
bit is dropped. -/
def Obligations.EncodeDecode : Prop :=
  (∀ (w : Word) (i : Instr), decode w = .ok i → encode i = w) ∧
  (∀ (f : BitVec 6) (p : BitVec 20) (u : UnitInstr), decodeUnit f p = .instr u → encodeUnit u = (f, p))

/-- The unassigned opcodes are exactly those of R111. -/
def Obligations.UnassignedOpcodes : Prop :=
  ∀ w : Word, (∃ op, decode w = .error (.unassignedOpcode op)) ↔
    w.extractLsb' 0 8 ∈ [0x05#8, 0x07#8, 0x12#8, 0x13#8, 0x16#8, 0x17#8] ∨
    (0x1A ≤ (w.extractLsb' 0 8).toNat ∧ (w.extractLsb' 0 8).toNat ≤ 0x1F) ∨
    (0x42 ≤ (w.extractLsb' 0 8).toNat ∧ (w.extractLsb' 0 8).toNat ≤ 0xFE)

/-! ### UND, PAUSE, HALT, STOP -/

/-- R141: UND raises EX[2] for either opcode and every payload: the exception is taken with `intret` the UND's own address, and
under t = 1 the machine resets. -/
def Obligations.UndTraps : Prop :=
  (∀ w : Word, w.extractLsb' 0 8 = 0x00 → decode w = .ok (.und00 (w.extractLsb' 8 24))) ∧
  (∀ w : Word, w.extractLsb' 0 8 = 0xFF → decode w = .ok (.undFF (w.extractLsb' 8 24))) ∧
  ∀ (p : BitVec 24) (s : State),
    (∀ a, s.sysT = false → s.VectorTo 2 a →
      exec (.und00 p) s = .next (s.enterException a) ∧ exec (.undFF p) s = .next (s.enterException a)) ∧
    (s.sysT = true →
      (∃ t, exec (.und00 p) s = .next t ∧ s.IsReset t) ∧ ∃ t, exec (.undFF p) s = .next t ∧ s.IsReset t)

/-- PAUSE moves pc and nothing else; HALT and STOP also set the run status; FPAUSE changes no register of its unit (R142, R261,
R262, R282). -/
def Obligations.IdleInstructionsEffect : Prop :=
  ∀ s : State,
    (∀ k, exec (.pause k) s = .next { s with pc := s.pc + 4 }) ∧
    exec .halt s = .next { s with status := .halted, pc := s.pc + 4 } ∧
    exec .stop s = .next { s with status := .stopped, pc := s.pc + 4 } ∧
    ∀ n k, exec (.fpause n k) s = .next s

/-! ### MOV -/

/-- R62, R63: the registers MOV may read and write. -/
def Obligations.ReadableAndWritable : Prop :=
  ∀ (s : State) (m : BitVec 4) (i : BitVec 5),
    (s.readable m i = .defined ↔ s.ReadableRule m i) ∧ (s.writable m i = .defined ↔ s.WritableRule m i) ∧
    (s.readable m i = .undescribed ↔ s.Undescribed m i) ∧ (s.writable m i = .undescribed ↔ s.Undescribed m i)

/-- A MOV whose condition holds copies a register of Maps 0 to 4 into a general register (R143, R144). -/
def Obligations.MovReads : Prop :=
  ∀ (d i : BitVec 5) (l r : Bool) (c : Cond) (m : BitVec 4) (v : Word) (s : State), c.holds s.flags = true →
    ((m = 0 ∧ v = s.reg i) ∨
     (r = false ∧
      ((m = 1 ∧ i = 0 ∧ v = s.sysctl) ∨ (m = 1 ∧ i = 2 ∧ v = s.inttab) ∨ (m = 1 ∧ i = 31 ∧ v = s.intret) ∨
       (m = 2 ∧ v = s.ioReg i) ∨ (m = 3 ∧ v = s.cfg.infoRegs[i.toNat]'i.isLt) ∨
       (m = 4 ∧ ∃ n : BitVec 3, i = n.setWidth 5 ∧ s.enabled n = true ∧ v = (s.cop n).ctl) ∨
       (m = 4 ∧ i = 30 ∧ v = s.copen) ∨ (m = 4 ∧ i = 31 ∧ v = s.cfg.copPresent.setWidth 32)))) →
    ∃ t, exec (.mov d i l c r m) s = .next t ∧ t.pc = s.pc + 4 ∧ t.flags = s.flags ∧
      (∀ j, t.reg j = if j = d ∧ d ≠ 0 then v else s.reg j) ∧ s.SameBeyondCore t

/-- A MOV reads a register of an enabled FPU as it is at that moment, of `fpuop` the x, r and u bits, and an i field of 0 when no
instruction is queued or has run since the register was 0 (log 19); of a readable register of an enabled opaque coprocessor it
delivers some value, any value (R51, R272, R275, R277; the free value is the model's, log 18). -/
def Obligations.MovReadsUnits : Prop :=
  ∀ (d i : BitVec 5) (l : Bool) (c : Cond) (n : BitVec 3) (s : State), c.holds s.flags = true → s.enabled n = true →
    ((s.kind n = .fpu ∧ i.toNat < 26) ∨ ∃ rd wr, s.kind n = .other rd wr ∧ i ∈ rd) →
    ∃ t v, exec (.mov d i l c false (1#1 ++ n)) s = .next t ∧
      (s.kind n = .fpu →
        (∀ h : i.toNat < 16, v = (s.cop n).fp[i.toNat]) ∧
        (∀ h : 16 ≤ i.toNat ∧ i.toNat < 24, v = (s.cop n).fpi[i.toNat - 16]) ∧
        (i = 24 → v.extractLsb' 0 3 = (s.cop n).opX ∧ (v.getLsbD 16 = true ↔ (s.cop n).queue ≠ []) ∧
          v.getLsbD 17 = (s.cop n).opU ∧
          ((s.cop n).opBegun = false → (s.cop n).queue = [] → v.extractLsb' 18 14 = 0)) ∧
        (i = 25 → v = (s.cop n).csr)) ∧
      (∀ j, t.reg j = if j = d ∧ d ≠ 0 then v else s.reg j) ∧ (∀ b, t.byteAt b = s.byteAt b) ∧
      t = { s with x := t.x, pc := s.pc + 4, fresh := t.fresh }

/-- A MOV of a valid value writes `sysctl`, `inttab`, `intret` or a transfer register, and nothing else (R37, R38, R39, R42,
R64, R144). -/
def Obligations.MovWritesSystem : Prop :=
  ∀ (d i : BitVec 5) (l : Bool) (c : Cond) (s : State), c.holds s.flags = true →
    let v := s.reg i
    (v.extractLsb' 1 30 = 0 → exec (.mov 0 i l c true 1) s = .next { s with sysctl := v, pc := s.pc + 4 }) ∧
    (v.extractLsb' 0 3 = 0 → exec (.mov 2 i l c true 1) s = .next { s with inttab := v, pc := s.pc + 4 }) ∧
    exec (.mov 31 i l c true 1) s = .next { s with intret := v, pc := s.pc + 4 } ∧
    ∃ t, exec (.mov d i l c true 2) s = .next t ∧ (∀ j, t.ioReg j = if j = d then v else s.ioReg j) ∧
      t = { s with io := t.io, pc := s.pc + 4 }

/-- A MOV of a valid value to `copen` enables and disables coprocessors: an enabled one starts with `fpuop` 0, an empty queue, no
pending error and its control word kept; a disabled one loses its queue and its undelivered error. Of an FPU that is R273's; of
an opaque coprocessor what an enable leaves and the discarded queue are the model's choice, which R145 leaves to the
coprocessor (R47, R145, R273, R354, log 18). -/
def Obligations.MovWritesCopen : Prop :=
  ∀ (i : BitVec 5) (l : Bool) (c : Cond) (s : State), c.holds s.flags = true →
    (s.reg i).extractLsb' 8 24 = 0 → (s.reg i).extractLsb' 0 8 &&& ~~~s.cfg.copPresent = 0 →
    ∃ t, exec (.mov 30 i l c true 4) s = .next t ∧ t.copen = s.reg i ∧
      (∀ n : BitVec 3, (s.reg i).getLsbD n.toNat = s.copen.getLsbD n.toNat →
        t.cop n = s.cop n ∧ t.pendingUnitError[n.toNat]'n.isLt = s.pendingUnitError[n.toNat]'n.isLt) ∧
      (∀ n : BitVec 3, (s.reg i).getLsbD n.toNat = true → s.copen.getLsbD n.toNat = false →
        (t.cop n).ctl = (s.cop n).ctl ∧ (t.cop n).queue = [] ∧ (t.cop n).opX = 0 ∧ (t.cop n).opU = false ∧
        t.pendingUnitError[n.toNat]'n.isLt = false) ∧
      (∀ n : BitVec 3, (s.reg i).getLsbD n.toNat = false → s.copen.getLsbD n.toNat = true →
        t.cop n = { s.cop n with queue := [] } ∧ t.pendingUnitError[n.toNat]'n.isLt = false) ∧
      (∀ b, t.byteAt b = s.byteAt b) ∧
      t = { s with copen := t.copen, cops := t.cops, pendingUnitError := t.pendingUnitError, pc := s.pc + 4,
                   fresh := t.fresh }

/-- A MOV of 0 or 1 to the control word of an enabled FPU stores it, clears `fpuop`, disposes of pending work, and is a
Configuration Error with x = 0 when the unit was busy (R271, R274). An opaque coprocessor either stores the word and nothing
else changes, or rejects it and EX[4] is raised (R46, R64; the choice is the model's, log 18). -/
def Obligations.MovWritesControlWord : Prop :=
  ∀ (n : BitVec 3) (i : BitVec 5) (l : Bool) (c : Cond) (s : State), c.holds s.flags = true → s.enabled n = true →
    (s.kind n = .fpu → (s.reg i).extractLsb' 1 31 = 0 →
      ∃ t, exec (.mov (n.setWidth 5) i l c true 4) s = .next t ∧ t.pc = s.pc + 4 ∧
        (t.cop n).ctl = s.reg i ∧ (t.cop n).opX = 0 ∧ (t.cop n).opU = false ∧ (t.cop n).fp = (s.cop n).fp ∧
        (t.cop n).fpi = (s.cop n).fpi ∧ (t.cop n).csr = (s.cop n).csr ∧
        (∀ w ∈ (t.cop n).queue, w = .settle) ∧
        t.pendingUnitError[n.toNat]'n.isLt = (s.pendingUnitError[n.toNat]'n.isLt || s.busy n) ∧
        (∀ m : BitVec 3, m ≠ n →
          t.cop m = s.cop m ∧ t.pendingUnitError[m.toNat]'m.isLt = s.pendingUnitError[m.toNat]'m.isLt) ∧
        (∀ b, t.byteAt b = s.byteAt b) ∧
        t = { s with cops := t.cops, pendingUnitError := t.pendingUnitError, pc := s.pc + 4 }) ∧
    (∀ rd wr a, s.kind n = .other rd wr → s.sysT = false → s.VectorTo 4 a →
      ∃ t, exec (.mov (n.setWidth 5) i l c true 4) s = .next t ∧
        ((t.cop n = { s.cop n with ctl := s.reg i } ∧ (∀ m : BitVec 3, m ≠ n → t.cop m = s.cop m) ∧
          t = { s with cops := t.cops, pc := s.pc + 4, fresh := t.fresh }) ∨
         t = { s.enterException a with fresh := t.fresh }))

/-- A MOV to an FPU register 0 to 23 writes it at once; one to `fpuop` or `fpcsr` joins the queue and disposes of a status write
still pending at its end (R272, R277). A MOV to a writable register of an opaque coprocessor either completes, changing nothing
this model holds, or raises EX[4], as the coprocessor chooses (R51, R64; the choice is the model's, log 18). -/
def Obligations.MovWritesUnits : Prop :=
  ∀ (d i : BitVec 5) (n : BitVec 3) (l : Bool) (c : Cond) (s : State), c.holds s.flags = true → s.enabled n = true →
    (s.kind n = .fpu → d.toNat < 26 →
      ∃ t, exec (.mov d i l c true (1#1 ++ n)) s = .next t ∧
        (d.toNat < 16 → ∃ h : d.toNat < 16, t.cop n = { s.cop n with fp := (s.cop n).fp.set d.toNat (s.reg i) h }) ∧
        (16 ≤ d.toNat ∧ d.toNat < 24 →
          ∃ h : d.toNat - 16 < 8, t.cop n = { s.cop n with fpi := (s.cop n).fpi.set (d.toNat - 16) (s.reg i) h }) ∧
        (24 ≤ d.toNat → ∃ q, t.cop n = { s.cop n with queue := q ++ [.statusWrite d (s.reg i)] } ∧
          (∀ q' a v, (s.cop n).queue = q' ++ [.statusWrite a v] → q = q') ∧
          ((∀ q' a v, (s.cop n).queue ≠ q' ++ [.statusWrite a v]) → q = (s.cop n).queue)) ∧
        (∀ m : BitVec 3, m ≠ n → t.cop m = s.cop m) ∧ (∀ b, t.byteAt b = s.byteAt b) ∧
        t = { s with cops := t.cops, pc := s.pc + 4 }) ∧
    (∀ rd wr a, s.kind n = .other rd wr → d ∈ wr → s.sysT = false → s.VectorTo 4 a →
      ∃ t, exec (.mov d i l c true (1#1 ++ n)) s = .next t ∧
        (t = { s with pc := s.pc + 4, fresh := t.fresh } ∨ t = { s.enterException a with fresh := t.fresh }))

/-- A MOV whose condition fails and whose register passes the check only moves pc (R115, R144). -/
def Obligations.MovSkips : Prop :=
  ∀ (d i : BitVec 5) (l r : Bool) (c : Cond) (m : BitVec 4) (s : State), c.holds s.flags = false →
    (r = false → s.ReadableRule m i) → (r = true → s.WritableRule m d) →
    exec (.mov d i l c r m) s = .next { s with pc := s.pc + 4 }

/-- A MOV that names an undefined, unreadable or unwritable register raises EX[2] whatever its condition (R344, R40, R44, R48,
R49, R50); one that names an FPU register the spec does not describe is refused (R272, log 28). -/
def Obligations.MovChecksRegister : Prop :=
  ∀ (d i : BitVec 5) (l r : Bool) (c : Cond) (m : BitVec 4) (s : State),
    let named := if r then d else i
    let allowed := if r then s.WritableRule m d else s.ReadableRule m i
    (¬ allowed → ¬ s.Undescribed m named →
      (∀ a, s.sysT = false → s.VectorTo 2 a → exec (.mov d i l c r m) s = .next (s.enterException a)) ∧
      (s.sysT = true → ∃ t, exec (.mov d i l c r m) s = .next t ∧ s.IsReset t)) ∧
    (s.Undescribed m named → exec (.mov d i l c r m) s = .refused (.fpuRegisterUndescribed named))

/-- R346: a MOV whose condition holds and whose value is invalid for `sysctl`, `inttab`, `copen` or an FPU's control word raises
EX[4] and writes nothing. -/
def Obligations.MovChecksValue : Prop :=
  ∀ (d i : BitVec 5) (l : Bool) (c : Cond) (m : BitVec 4) (s : State), c.holds s.flags = true →
    let v := s.reg i
    ((m = 1 ∧ d = 0 ∧ v.extractLsb' 1 30 ≠ 0) ∨ (m = 1 ∧ d = 2 ∧ v.extractLsb' 0 3 ≠ 0) ∨
     (m = 4 ∧ d = 30 ∧ (v.extractLsb' 8 24 ≠ 0 ∨ ∃ n : Fin 8, v.getLsbD n = true ∧ s.cfg.copPresent.getLsbD n = false)) ∨
     (m = 4 ∧ ∃ n : BitVec 3, d = n.setWidth 5 ∧ s.enabled n = true ∧ s.kind n = .fpu ∧ v.extractLsb' 1 31 ≠ 0)) →
    (∀ a, s.sysT = false → s.VectorTo 4 a → exec (.mov d i l c true m) s = .next (s.enterException a)) ∧
    (s.sysT = true → ∃ t, exec (.mov d i l c true m) s = .next t ∧ s.IsReset t)

/-! ### ST, LD, LRA -/

/-- ST and PUSH store the low bytes of x[s], lowest byte at the lowest address, and a push leaves the decremented address in the
base (R71, R75, R161). -/
def Obligations.StEffect : Prop :=
  ∀ (d i : BitVec 5) (w : BitVec 2) (p : Bool) (s : State), d ≠ 0 → w ≠ 3 → s.mem.wf = true →
    let n := 2 ^ w.toNat
    let addr := s.storeAddr d w p
    addr.toNat % n = 0 → Config.accessible s.cfg .write addr n = true →
    ∃ t, exec (.st d i w p) s = .next t ∧
      (∀ k < n, t.byteAt (addr + BitVec.ofNat 32 k) = (s.reg i).extractLsb' (8 * k) 8) ∧
      (∀ b, (∀ k < n, b ≠ addr + BitVec.ofNat 32 k) → t.byteAt b = s.byteAt b) ∧
      addr = (if p then s.reg d - BitVec.ofNat 32 n else s.reg d) ∧
      (∀ j, t.reg j = if p = true ∧ j = d then addr else s.reg j) ∧
      t = { s with x := t.x, mem := t.mem, storedTo := t.storedTo, pc := s.pc + 4 }

/-- LD and POP load zero-extended, little-endian; a pop increments the base before the destination is written (R71, R74,
R162). -/
def Obligations.LdEffect : Prop :=
  ∀ (d i : BitVec 5) (w : BitVec 2) (p : Bool) (s : State), i ≠ 0 → w ≠ 3 →
    let n := 2 ^ w.toNat
    let a := s.reg i
    let v : Word :=
      if w = 0 then (s.byteAt a).setWidth 32
      else if w = 1 then (s.byteAt (a + 1) ++ s.byteAt a).setWidth 32
      else s.byteAt (a + 3) ++ s.byteAt (a + 2) ++ s.byteAt (a + 1) ++ s.byteAt a
    a.toNat % n = 0 → Config.accessible s.cfg .read a n = true →
    ∃ t, exec (.ld d i w p) s = .next t ∧ t.pc = s.pc + 4 ∧ t.flags = s.flags ∧
      (∀ j, t.reg j = if j = d ∧ d ≠ 0 then v else if p = true ∧ j = i then a + BitVec.ofNat 32 n else s.reg j) ∧
      s.SameBeyondCore t

/-- ST and LD raise EX[2] for base register 0 or size code 3, else EX[1] for a misaligned address (or refuse it under
MISALIGN_POLICY) or one MEM_MAP rejects; nothing is written (R72, R76, R161, R162, R349). -/
def Obligations.MemoryTraps : Prop :=
  ∀ (d i : BitVec 5) (w : BitVec 2) (p : Bool) (s : State), s.sysT = false →
    let n := 2 ^ w.toNat
    (∀ a, s.VectorTo 2 a →
      (d = 0 ∨ w = 3 → exec (.st d i w p) s = .next (s.enterException a)) ∧
      (i = 0 ∨ w = 3 → exec (.ld d i w p) s = .next (s.enterException a))) ∧
    (∀ a, s.VectorTo 1 a → w ≠ 3 →
      (d ≠ 0 → (s.storeAddr d w p).toNat % n ≠ 0 →
        exec (.st d i w p) s =
          if s.cfg.misalign = .raise then .next (s.enterException a) else .refused (.misalignedAccess (s.storeAddr d w p))) ∧
      (i ≠ 0 → (s.reg i).toNat % n ≠ 0 →
        exec (.ld d i w p) s =
          if s.cfg.misalign = .raise then .next (s.enterException a) else .refused (.misalignedAccess (s.reg i))) ∧
      (d ≠ 0 → (s.storeAddr d w p).toNat % n = 0 → Config.accessible s.cfg .write (s.storeAddr d w p) n = false →
        exec (.st d i w p) s = .next (s.enterException a)) ∧
      (i ≠ 0 → (s.reg i).toNat % n = 0 → Config.accessible s.cfg .read (s.reg i) n = false →
        exec (.ld d i w p) s = .next (s.enterException a)))

/-- R164: a push decrements before storing, and a pop of the same size through the same base increments after loading: it restores
the base and returns the low n bytes of the pushed value, zero-extended. -/
def Obligations.PushPopRestores : Prop :=
  ∀ (b i e : BitVec 5) (w : BitVec 2) (s : State), b ≠ 0 → w ≠ 3 → s.mem.wf = true →
    let n := 2 ^ w.toNat
    let addr := s.storeAddr b w true
    addr.toNat % n = 0 → Config.accessible s.cfg .write addr n = true → Config.accessible s.cfg .read addr n = true →
    ∃ t u, exec (.st b i w true) s = .next t ∧ exec (.ld e b w true) t = .next u ∧
      t.reg b = s.reg b - BitVec.ofNat 32 n ∧
      (∀ k < n, t.byteAt (t.reg b + BitVec.ofNat 32 k) = (s.reg i).extractLsb' (8 * k) 8) ∧
      (e ≠ 0 → (u.reg e).toNat = (s.reg i).toNat % 2 ^ (8 * n)) ∧ (e ≠ b → u.reg b = s.reg b) ∧
      ∀ j, j ≠ e → u.reg j = s.reg j

/-- R163: LRA adds the extended 16-bit offset to the address of the next instruction. -/
def Obligations.LraEffect : Prop :=
  ∀ (d : BitVec 5) (x : Bool) (o : BitVec 16) (s : State),
    ∃ t, exec (.lra d x o) s = .next t ∧ t.pc = s.pc + 4 ∧ t.flags = s.flags ∧
      (∀ j, t.reg j = if j = d ∧ d ≠ 0 then BitVec.ofInt 32 (s.pc.toNat + 4 + (if x then o.toInt else o.toNat))
        else s.reg j) ∧ s.SameBeyondCore t

/-! ### Arithmetic and logic -/

/-- ADDI: the immediate is the high half, or the low half extended as s says; C is the carry out, V signed overflow, written
unless c (R180, R189). -/
def Obligations.AddiEffect : Prop :=
  ∀ (d : BitVec 5) (h c x : Bool) (i : BitVec 16) (s : State),
    let a := s.reg d
    let b : Word := if h then BitVec.ofNat 32 (i.toNat * 65536) else BitVec.ofInt 32 (if x then i.toInt else i.toNat)
    let r := a + b
    ∃ t, exec (.addi d h c x i) s = .next t ∧ t.pc = s.pc + 4 ∧
      (∀ j, t.reg j = if j = d ∧ d ≠ 0 then r else s.reg j) ∧
      (c = true → t.flags = s.flags) ∧
      (c = false → (t.flags.getLsbD 0 = true ↔ r = 0) ∧ (t.flags.getLsbD 1 = true ↔ r.toInt < 0) ∧
        (t.flags.getLsbD 2 = true ↔ a.toInt + b.toInt ≠ r.toInt) ∧
        (t.flags.getLsbD 3 = true ↔ 2 ^ 32 ≤ a.toNat + b.toNat)) ∧
      s.SameBeyondCore t

/-- ADD: one source shifted as p and s say, the sum, its flags unless c (R181, R188, R189). -/
def Obligations.AddEffect : Prop :=
  ∀ (d i j : BitVec 5) (c : Bool) (k : BitVec 5) (p : Bool) (s : State),
    let a := if p then BitVec.ofNat 32 ((s.reg i).toNat * 2 ^ k.toNat) else s.reg i
    let b := if p then s.reg j else BitVec.ofNat 32 ((s.reg j).toNat * 2 ^ k.toNat)
    let r := a + b
    ∃ t, exec (.add d i j c k p) s = .next t ∧ t.pc = s.pc + 4 ∧
      (∀ q, t.reg q = if q = d ∧ d ≠ 0 then r else s.reg q) ∧
      (c = true → t.flags = s.flags) ∧
      (c = false → (t.flags.getLsbD 0 = true ↔ r = 0) ∧ (t.flags.getLsbD 1 = true ↔ r.toInt < 0) ∧
        (t.flags.getLsbD 2 = true ↔ a.toInt + b.toInt ≠ r.toInt) ∧
        (t.flags.getLsbD 3 = true ↔ 2 ^ 32 ≤ a.toNat + b.toNat)) ∧
      s.SameBeyondCore t

/-- SUB: src1 - src2, C the borrow, V signed overflow, unless c (R182, R188, R189). -/
def Obligations.SubEffect : Prop :=
  ∀ (d i j : BitVec 5) (c : Bool) (k : BitVec 5) (p : Bool) (s : State),
    let a := if p then BitVec.ofNat 32 ((s.reg i).toNat * 2 ^ k.toNat) else s.reg i
    let b := if p then s.reg j else BitVec.ofNat 32 ((s.reg j).toNat * 2 ^ k.toNat)
    let r := a - b
    ∃ t, exec (.sub d i j c k p) s = .next t ∧ t.pc = s.pc + 4 ∧
      (∀ q, t.reg q = if q = d ∧ d ≠ 0 then r else s.reg q) ∧
      (c = true → t.flags = s.flags) ∧
      (c = false → (t.flags.getLsbD 0 = true ↔ r = 0) ∧ (t.flags.getLsbD 1 = true ↔ r.toInt < 0) ∧
        (t.flags.getLsbD 2 = true ↔ a.toInt - b.toInt ≠ r.toInt) ∧
        (t.flags.getLsbD 3 = true ↔ a.toNat < b.toNat)) ∧
      s.SameBeyondCore t

/-- AND, OR, XOR: bit by bit on the shifted sources; Z and N unless c, C and V kept (R183, R184, R185, R188, R189). -/
def Obligations.LogicEffect : Prop :=
  ∀ (d i j : BitVec 5) (c : Bool) (k : BitVec 5) (p : Bool) (s : State),
    let a := if p then BitVec.ofNat 32 ((s.reg i).toNat * 2 ^ k.toNat) else s.reg i
    let b := if p then s.reg j else BitVec.ofNat 32 ((s.reg j).toNat * 2 ^ k.toNat)
    ∀ (f : Instr) (op : Bool → Bool → Bool),
      (f = .and d i j c k p ∧ op = and) ∨ (f = .or d i j c k p ∧ op = or) ∨ (f = .xor d i j c k p ∧ op = xor) →
      ∃ t r, exec f s = .next t ∧ t.pc = s.pc + 4 ∧ (∀ z < 32, r.getLsbD z = op (a.getLsbD z) (b.getLsbD z)) ∧
        (∀ q, t.reg q = if q = d ∧ d ≠ 0 then r else s.reg q) ∧
        (c = true → t.flags = s.flags) ∧
        (c = false → (t.flags.getLsbD 0 = true ↔ r = (0 : Word)) ∧ (t.flags.getLsbD 1 = true ↔ r.toInt < 0) ∧
          t.flags.getLsbD 2 = s.flags.getLsbD 2 ∧ t.flags.getLsbD 3 = s.flags.getLsbD 3) ∧
        s.SameBeyondCore t

/-! ### Conditions and jumps -/

/-- R202: the sixteen predicates over Z, N, V, C, and the complementary pairs. -/
def Obligations.ConditionTable : Prop :=
  ∀ f : BitVec 4,
    let Z := f.getLsbD 0
    let N := f.getLsbD 1
    let V := f.getLsbD 2
    let C := f.getLsbD 3
    (∀ k : BitVec 4, (Cond.ofBits k).holds f = !(Cond.ofBits (~~~k)).holds f) ∧
    (Cond.ofBits 1).holds f = C ∧ (Cond.ofBits 2).holds f = Z ∧ (Cond.ofBits 3).holds f = V ∧
    (Cond.ofBits 4).holds f = (C || Z) ∧ (Cond.ofBits 5).holds f = ((V == N) && !Z) ∧
    (Cond.ofBits 6).holds f = ((V == N) || Z) ∧ (Cond.ofBits 7).holds f = N ∧ (Cond.ofBits 15).holds f = true

/-- R205: what each condition means after `SUB r0, ra, rb` with s = 0; the four signed names are mirror images. -/
def Obligations.ConditionsAfterSub : Prop :=
  ∀ (i j : BitVec 5) (p : Bool) (s : State), ∃ t, exec (.sub 0 i j false 0 p) s = .next t ∧
    let a := s.reg i
    let b := s.reg j
    let holds (k : BitVec 4) : Bool := (Cond.ofBits k).holds t.flags
    (holds 1 = true ↔ a.toNat < b.toNat) ∧ (holds 14 = true ↔ b.toNat ≤ a.toNat) ∧
    (holds 4 = true ↔ a.toNat ≤ b.toNat) ∧ (holds 11 = true ↔ b.toNat < a.toNat) ∧
    (holds 2 = true ↔ a = b) ∧ (holds 13 = true ↔ a ≠ b) ∧
    (holds 5 = true ↔ b.toInt < a.toInt) ∧ (holds 6 = true ↔ b.toInt ≤ a.toInt) ∧
    (holds 9 = true ↔ a.toInt < b.toInt) ∧ (holds 10 = true ↔ a.toInt ≤ b.toInt) ∧
    (holds 7 = (a - b).getLsbD 31) ∧ (holds 3 = true ↔ a.toInt - b.toInt ≠ (a - b).toInt) ∧
    (a.toInt < b.toInt ↔ t.flags.getLsbD 1 ≠ t.flags.getLsbD 2)

/-- JMP: taken exactly when the condition holds, to npc plus four times the signed offset, linking only when taken and l is not 0
(R203). -/
def Obligations.JmpEffect : Prop :=
  ∀ (c : Cond) (l : BitVec 5) (o : BitVec 15) (s : State),
    ∃ t, exec (.jmp c l o) s = .next t ∧
      t.pc = (if c.holds s.flags then BitVec.ofInt 32 (s.pc.toNat + 4 + 4 * o.toInt) else s.pc + 4) ∧
      (∀ j, t.reg j = if c.holds s.flags = true ∧ j = l ∧ l ≠ 0 then s.pc + 4 else s.reg j) ∧ t.flags = s.flags ∧
      s.SameBeyondCore t

/-- JMPR: a target with a low bit set raises EX[3] whatever the condition; else the jump goes to the old value of the register,
linking as JMP does (R204, R345). -/
def Obligations.JmprEffect : Prop :=
  ∀ (c : Cond) (l r : BitVec 5) (s : State),
    ((s.reg r).toNat % 4 = 0 →
      ∃ t, exec (.jmpr c l r) s = .next t ∧ t.pc = (if c.holds s.flags then s.reg r else s.pc + 4) ∧
        (∀ j, t.reg j = if c.holds s.flags = true ∧ j = l ∧ l ≠ 0 then s.pc + 4 else s.reg j) ∧ t.flags = s.flags ∧
        s.SameBeyondCore t) ∧
    ((s.reg r).toNat % 4 ≠ 0 →
      (∀ a, s.sysT = false → s.VectorTo 3 a → exec (.jmpr c l r) s = .next (s.enterException a)) ∧
      (s.sysT = true → ∃ t, exec (.jmpr c l r) s = .next t ∧ s.IsReset t))

/-! ### IN, OUT, LDFLAGS, STFLAGS -/

/-- IN shifts the transfer register down by W and puts W bits from the port at its top; one port read joins the trace (R221 to
R223); which W-bit value the port gives is the environment's. That it is the next entry of
`portAnswers`, which is then used up, is the model's choice (log 6). -/
def Obligations.InEffect : Prop :=
  ∀ (d : BitVec 5) (p : BitVec 8) (w : BitVec 5) (s : State),
    let n := if w = 0 then 32 else w.toNat
    ∃ t v, exec (.inp d p w) s = .next t ∧ v.toNat < 2 ^ n ∧ t.ioTrace = s.ioTrace ++ [.input p n v] ∧
      (∀ a rest, s.portAnswers = a :: rest → v.toNat = a.toNat % 2 ^ n ∧ t.portAnswers = rest) ∧
      (s.portAnswers = [] → t.portAnswers = []) ∧
      (∀ k < 32, (t.ioReg d).getLsbD k =
        if k < 32 - n then (s.ioReg d).getLsbD (k + n) else v.getLsbD (k - (32 - n))) ∧
      (∀ j, j ≠ d → t.ioReg j = s.ioReg j) ∧ (∀ b, t.byteAt b = s.byteAt b) ∧
      t = { s with io := t.io, portAnswers := t.portAnswers, ioTrace := t.ioTrace, fresh := t.fresh, pc := s.pc + 4 }

/-- OUT sends the low W bits of the transfer register and shifts zeros in at its top; one port write joins the trace (R221, R222,
R224). -/
def Obligations.OutEffect : Prop :=
  ∀ (i : BitVec 5) (p : BitVec 8) (w : BitVec 5) (s : State),
    let n := if w = 0 then 32 else w.toNat
    ∃ t v, exec (.out i p w) s = .next t ∧ v.toNat = (s.ioReg i).toNat % 2 ^ n ∧
      t.ioTrace = s.ioTrace ++ [.output p n v] ∧ (t.ioReg i).toNat = (s.ioReg i).toNat / 2 ^ n ∧
      (∀ j, j ≠ i → t.ioReg j = s.ioReg j) ∧ (∀ b, t.byteAt b = s.byteAt b) ∧
      t = { s with io := t.io, ioTrace := t.ioTrace, pc := s.pc + 4 }

/-- LDFLAGS and STFLAGS copy the four flags to and from bits 3:0 of a general register; a value saved by LDFLAGS and left alone
is restored exactly by STFLAGS, and r0 clears the flags (R225, R226, R227, R22). -/
def Obligations.FlagMovesEffect : Prop :=
  ∀ (r : BitVec 5) (s : State),
    (∃ t, exec (.ldflags r) s = .next t ∧ t.pc = s.pc + 4 ∧ t.flags = s.flags ∧
      (∀ j, t.reg j = if j = r ∧ r ≠ 0 then s.flags.setWidth 32 else s.reg j) ∧ s.SameBeyondCore t ∧
      ∀ u : State, u.reg r = t.reg r → ∃ v, exec (.stflags r) u = .next v ∧ v.flags = if r = 0 then 0 else s.flags) ∧
    ∃ t, exec (.stflags r) s = .next t ∧ t.pc = s.pc + 4 ∧ t.flags = (s.reg r).extractLsb' 0 4 ∧
      (∀ j, t.reg j = s.reg j) ∧ s.SameBeyondCore t

/-! ### Coprocessor invocation -/

/-- The CPI forms on an enabled opaque coprocessor complete: the slot's queue is empty and its u field set, pc moves, and nothing
else changes, the pending errors included (R242, R244; that an opaque unit changes nothing visible is the model's, log 18). -/
def Obligations.CpiOpaqueCompletes : Prop :=
  ∀ (x : BitVec 3) (rd wr : List (BitVec 5)) (s : State), s.enabled x = true → s.kind x = .other rd wr →
    let completes (i : Instr) : Prop :=
      ∃ t, exec i s = .next t ∧ t.cop x = { s.cop x with queue := [], opU := true } ∧
        (∀ m : BitVec 3, m ≠ x → t.cop m = s.cop m) ∧ (∀ b, t.byteAt b = s.byteAt b) ∧
        t = { s with cops := t.cops, pc := s.pc + 4 }
    (∀ f p, completes (Instr.cpiOf x f p)) ∧ ∀ f p, completes (Instr.cpiefOf x f p)

/-- A CPI form on an idle enabled FPU runs the unit function its payload encodes, as that function's own meaning says, then moves
pc (R241, R242, R244, R278). -/
def Obligations.CpiRunsUnitFunction : Prop :=
  ∀ (x : BitVec 3) (u : UnitInstr) (s : State), s.enabled x = true → s.kind x = .fpu → (s.cop x).queue = [] →
    let s1 := s.setCop x { s.cop x with opU := true, opBegun := true }
    (∀ f p, decodeUnit (f.setWidth 6) p = .instr u →
      exec (Instr.cpiOf x f p) s = andThen (exec (u.toInstr x) s1) fun t => .next { t with pc := t.pc + 4 }) ∧
    (∀ f p, decodeUnit f (p.setWidth 20) = .instr u →
      exec (Instr.cpiefOf x f p) s = andThen (exec (u.toInstr x) s1) fun t => .next { t with pc := t.pc + 4 })

/-- A CPI form that completes has waited for everything queued on its unit (R242). -/
def Obligations.CpiWaitsForUnit : Prop :=
  ∀ (x : BitVec 3) (s t : State), s.enabled x = true →
    (∀ f p, exec (Instr.cpiOf x f p) s = .next t → t.busy x = false ∧ t.pc = s.pc + 4 ∧ t.x = s.x ∧ t.flags = s.flags) ∧
    (∀ f p, exec (Instr.cpiefOf x f p) s = .next t → t.busy x = false ∧ t.pc = s.pc + 4 ∧ t.x = s.x ∧ t.flags = s.flags)

/-- The NCPI forms on an enabled coprocessor append the unit instruction to its queue, set its u bit and complete (R243, R245,
R275). -/
def Obligations.NcpiIssues : Prop :=
  ∀ (x : BitVec 3) (s : State), s.enabled x = true →
    (∀ f p, ∃ t, exec (Instr.ncpiOf x f p) s = .next t ∧ t.pc = s.pc + 4 ∧
      t.cop x = { s.cop x with queue := (s.cop x).queue ++ [.instr (f.setWidth 6) p], opU := true } ∧
      s.SameBeyondUnit x { t with pc := s.pc }) ∧
    (∀ f p, ∃ t, exec (Instr.ncpiefOf x f p) s = .next t ∧ t.pc = s.pc + 4 ∧
      t.cop x = { s.cop x with queue := (s.cop x).queue ++ [.instr f (p.setWidth 20)], opU := true } ∧
      s.SameBeyondUnit x { t with pc := s.pc })

/-- All 32 CPI-group instructions raise EX[2] when their unit is not present or not enabled, and issue nothing (R242 to R245,
R344). -/
def Obligations.CpiDisabledTraps : Prop :=
  ∀ (x : BitVec 3) (s : State), s.cfg.copPresent.getLsbD x.toNat = false ∨ s.copen.getLsbD x.toNat = false →
    ∀ i : Instr, (∃ f p, i = Instr.cpiOf x f p ∨ i = Instr.ncpiOf x f p) ∨
        (∃ f p, i = Instr.cpiefOf x f p ∨ i = Instr.ncpiefOf x f p) →
      (∀ a, s.sysT = false → s.VectorTo 2 a → exec i s = .next (s.enterException a)) ∧
      (s.sysT = true → ∃ t, exec i s = .next t ∧ s.IsReset t)

/-- R279: an invalid unit instruction given to an idle FPU by CPIx or CPIxEF signals Error 2, sets u and does nothing else, and so
does a function number with no row where UNASSIGNED_OPCODE_POLICY raises; under its default such a number is refused by name
(log 11). R358: with t clear and no source pending with its gate open, the Unit Error is taken at the very next boundary, with
`intret` the address after the CPI. -/
def Obligations.InvalidUnitInstructionIsDelivered : Prop :=
  ∀ (x : BitVec 3) (f : BitVec 6) (p : BitVec 20) (i : Instr) (s : State),
    (∃ g : BitVec 4, f = g.setWidth 6 ∧ i = Instr.cpiOf x g p) ∨
      (∃ q : BitVec 18, p = q.setWidth 20 ∧ i = Instr.cpiefOf x f q) →
    s.enabled x = true → s.kind x = .fpu → (s.cop x).queue = [] →
    (decodeUnit f p = .unlisted → s.cfg.unlistedFunction = .refuse →
      exec i s = .refused (.unlistedUnitFunction f)) ∧
    (decodeUnit f p = .invalid ∨ (decodeUnit f p = .unlisted ∧ s.cfg.unlistedFunction = .raise) →
      ∃ t, exec i s = .next t ∧ t.cop x = { s.cop x with opX := 2, opU := true, opBegun := true } ∧
        t.pendingUnitError[x.toNat]'x.isLt = true ∧ t.pc = s.pc + 4 ∧ t.fresh = s.fresh ∧
        s.SameBeyondUnit x { t with pc := s.pc } ∧
        ∀ a, s.status = .running → s.schedule = [] → s.sysT = false → (∀ v, ¬ s.GateOpen v) →
          s.VectorTo (8 + x.toNat) a →
          ∃ u, step t = .next u ∧ u.pc = a ∧ u.intret = s.pc + 4 ∧ u.sysctl = s.sysctl ∧ u.status = .running ∧
            (∀ n : Fin 8, u.pendingUnitError[n] = false) ∧ (∀ j, u.reg j = s.reg j) ∧ u.flags = s.flags ∧
            ∀ b, u.byteAt b = s.byteAt b)

/-! ### The floating-point unit -/

/-- FPMOV moves all 32 bits between any two described registers of its unit when the condition holds of fpcsr[3:0]; then an
unmasked indication is Error 1. Read, `fpuop` gives its x and u, and r as 0. A move of 0 to `fpuop` clears it, but for u when an
instruction is still queued (log 40), and of anything else is Error 3; a move to `fpcsr` is checked as a CPU write is, a changed
z bit by the model's choice (log 20). A register the spec does not describe is refused (R274, R275, R276, R281, R283, log 28). -/
def Obligations.FpmovEffect : Prop :=
  ∀ (n : BitVec 3) (i d : BitVec 5) (c : Cond) (s : State),
    let u := s.cop n
    let e := s.pendingUnitError[n.toNat]'n.isLt
    let holds := c.holds (u.csr.extractLsb' 0 4) = true
    (holds → i.toNat < 26 → d.toNat < 26 →
      ∃ t v, exec (.fpmov n i d c) s = .next t ∧ s.SameBeyondUnit n t ∧
        (t.cop n).ctl = u.ctl ∧ (t.cop n).queue = u.queue ∧
        (∀ h : i.toNat < 16, v = u.fp[i.toNat]) ∧
        (∀ h : 16 ≤ i.toNat ∧ i.toNat < 24, v = u.fpi[i.toNat - 16]) ∧
        (i = 24 → v.extractLsb' 0 3 = u.opX ∧ v.getLsbD 16 = false ∧ v.getLsbD 17 = u.opU) ∧
        (i = 25 → v = u.csr) ∧
        (∀ j : Fin 16, (t.cop n).fp[j] = if j.val = d.toNat then v else u.fp[j]) ∧
        (∀ j : Fin 8, (t.cop n).fpi[j] = if j.val + 16 = d.toNat then v else u.fpi[j]) ∧
        (d.toNat < 24 → (t.cop n).csr = u.csr ∧ (t.cop n).opU = u.opU ∧ State.CheckedErrors n u.opX e t) ∧
        (d = 24 → (t.cop n).csr = u.csr ∧
          (v = 0 → ((t.cop n).opU = true ↔ ∃ f p, UnitWork.instr f p ∈ u.queue) ∧ State.CheckedErrors n 0 e t) ∧
          (v ≠ 0 → (t.cop n).opU = u.opU ∧ State.CheckedErrors n 3 true t)) ∧
        (d = 25 → (t.cop n).opU = u.opU ∧
          (v &&& 0x3C1F0000 ≠ 0 → (t.cop n).csr = u.csr ∧ State.CheckedErrors n 3 true t) ∧
          (v &&& 0x3C1F0000 = 0 → v &&& 0x0000FC10 = u.csr &&& 0x0000FC10 →
            (t.cop n).csr = v ∧ State.CheckedErrors n u.opX e t) ∧
          (v &&& 0x3C1F0000 = 0 → v &&& 0x0000FC10 ≠ u.csr &&& 0x0000FC10 →
            ((t.cop n).csr = u.csr ∧ State.CheckedErrors n 3 true t) ∨
            ((t.cop n).csr &&& 0xFFFF03EF = v &&& 0xFFFF03EF ∧ State.CheckedErrors n u.opX e t)))) ∧
    (holds → 26 ≤ i.toNat → exec (.fpmov n i d c) s = .refused (.fpuRegisterUndescribed i)) ∧
    (holds → i.toNat < 26 → 26 ≤ d.toNat → exec (.fpmov n i d c) s = .refused (.fpuRegisterUndescribed d)) ∧
    (¬ holds → ∃ t, exec (.fpmov n i d c) s = .next t ∧ t.cop n = { u with opX := (t.cop n).opX } ∧
      State.CheckedErrors n u.opX e t ∧ s.SameBeyondUnit n t)

/-- A CPU write to `fpuop` or `fpcsr` when the unit reaches it: `fpuop` takes only 0, which leaves u set exactly when an instruction
issued after the write is still queued (log 40); `fpcsr` takes a value whose must-be-zero
bits are 0 and whose z bits are kept; any other is Error 3 and changes no register, but that a changed z bit may also be
accepted (R274, R275, R276; the choice is the model's, log 20). -/
def Obligations.StatusWritesChecked : Prop :=
  ∀ (n : BitVec 3) (v : Word) (q : List UnitWork) (s : State), s.kind n = .fpu →
    ((s.cop n).queue = .statusWrite 24 v :: q →
      ∃ t, applyEvent (.unitRun n) s = .next t ∧ s.SameBeyondUnit n t ∧
        (v = 0 → t.cop n = { s.cop n with queue := q, opX := 0, opU := (t.cop n).opU, opBegun := false } ∧
          ((t.cop n).opU = true ↔ ∃ f p, UnitWork.instr f p ∈ q) ∧
          t.pendingUnitError[n.toNat]'n.isLt = s.pendingUnitError[n.toNat]'n.isLt) ∧
        (v ≠ 0 → t.cop n = { s.cop n with queue := q, opX := 3 } ∧ t.pendingUnitError[n.toNat]'n.isLt = true)) ∧
    ((s.cop n).queue = .statusWrite 25 v :: q →
      ∃ t, applyEvent (.unitRun n) s = .next t ∧ s.SameBeyondUnit n t ∧
        (v &&& 0x3C1F0000 ≠ 0 →
          t.cop n = { s.cop n with queue := q, opX := 3 } ∧ t.pendingUnitError[n.toNat]'n.isLt = true) ∧
        (v &&& 0x3C1F0000 = 0 → v &&& 0x0000FC10 = (s.cop n).csr &&& 0x0000FC10 →
          t.cop n = { s.cop n with queue := q, csr := v } ∧
          t.pendingUnitError[n.toNat]'n.isLt = s.pendingUnitError[n.toNat]'n.isLt) ∧
        (v &&& 0x3C1F0000 = 0 → v &&& 0x0000FC10 ≠ (s.cop n).csr &&& 0x0000FC10 →
          (t.cop n = { s.cop n with queue := q, opX := 3 } ∧ t.pendingUnitError[n.toNat]'n.isLt = true) ∨
          (∃ csr, t.cop n = { s.cop n with queue := q, csr := csr } ∧ csr &&& 0xFFFF03EF = v &&& 0xFFFF03EF)))

/-- CVTI2F completes for every format and every integer; of its slot only fp[d], fpcsr and the error number can change, and of the
indications only overflow and inexact, which it can only set. To FP32, an integer of magnitude up to 2^24 is converted exactly
and sets no indication, in every rounding mode (R281, R286; the formats are IEEE 754's by the model's reading, log 22). -/
def Obligations.Cvti2fExact : Prop :=
  ∀ (n : BitVec 3) (i : BitVec 3) (d : BitVec 4) (sg y : Bool) (r : RoundMode) (s : State),
    let u := s.cop n
    let z : Int := if sg then (u.fpReg (i.setWidth 4)).toInt else (u.fpReg (i.setWidth 4)).toNat
    (∀ k, ∃ t, exec (.cvti2f n i d sg k y r) s = .next t ∧ t.fresh = s.fresh ∧ s.SameBeyondUnit n t ∧
      t.cop n = { u with fp := (t.cop n).fp, csr := (t.cop n).csr, opX := (t.cop n).opX } ∧
      (∀ j, j ≠ d → (t.cop n).fpReg j = u.fpReg j) ∧
      (t.cop n).csr &&& u.csr = u.csr ∧ (t.cop n).csr ||| 0xA0 = u.csr ||| 0xA0 ∧
      State.CheckedErrors n u.opX (s.pendingUnitError[n.toNat]'n.isLt) t) ∧
    (z.natAbs ≤ 2 ^ 24 →
      ∃ t m e, exec (.cvti2f n i d sg .fp32 y r) s = .next t ∧
        unpackFloat .fp32 ((t.cop n).fpReg d).toNat = .finite (decide (z < 0)) m e ∧
        m * 2 ^ (e + 149).toNat = z.natAbs * 2 ^ 149 ∧ -149 ≤ e ∧ (t.cop n).csr = u.csr)

/-- CVTF2I completes on every operand, of both formats, in every rounding mode, static and dynamic; of its slot only fp[d], fpcsr
and the error number can change. A finite value is rounded to an integer in the mode chosen by y, r and `fpcsr` (toward zero
drops its fraction); inexact is indicated exactly when it was no integer. A NaN, an infinity or a result outside the integer
range indicates invalid, and fp[d] holds some value (R280, R281, R284, R287, log 15, log 22, log 25). -/
def Obligations.Cvtf2iTruncates : Prop :=
  ∀ (n : BitVec 3) (i : BitVec 4) (d : BitVec 3) (f : FloatFormat) (sg y : Bool) (r : RoundMode) (s : State),
    let u := s.cop n
    let v := unpackFloat f (floatOperand s.cfg.fp16 f (u.fpReg i))
    let fits (z : Int) : Prop := if sg then -2 ^ 31 ≤ z ∧ z < 2 ^ 31 else 0 ≤ z ∧ z < 2 ^ 32
    ∃ t, exec (.cvtf2i n i d f sg y r) s = .next t ∧ s.SameBeyondUnit n t ∧
      t.cop n = { u with fp := (t.cop n).fp, csr := (t.cop n).csr, opX := (t.cop n).opX } ∧
      (∀ j, j ≠ d.setWidth 4 → (t.cop n).fpReg j = u.fpReg j) ∧
      State.CheckedErrors n u.opX (s.pendingUnitError[n.toNat]'n.isLt) t ∧
      (∀ neg m e, v = .finite neg m e →
        let num : Int := (if neg then -(m : Int) else m) * 2 ^ e.toNat
        let den : Nat := 2 ^ (-e).toNat
        ∃ z, RoundsTo (s.roundingMode n y r) num den z ∧
          (fits z → (t.cop n).fpReg (d.setWidth 4) = BitVec.ofInt 32 z ∧
            (t.cop n).csr = u.csr ||| (if num % den ≠ 0 then 0x80 else 0)) ∧
          (¬ fits z → (t.cop n).csr = u.csr ||| 0x200)) ∧
      ((∀ neg m e, v ≠ .finite neg m e) → (t.cop n).csr = u.csr ||| 0x200)

/-- CVTF2F completes on every operand. From FP16 (in the low half, the recommended container) to FP32 every number is converted
exactly, a NaN gives a NaN, and only a signalling NaN sets an indication, invalid (R281, R284, R285, log 15, log 22, log 24). -/
def Obligations.Cvtf2fHalfToSingle : Prop :=
  ∀ (n : BitVec 3) (i d : BitVec 4) (y : Bool) (r : RoundMode) (s : State),
    (∀ f k, ∃ t, exec (.cvtf2f n i d f k y r) s = .next t ∧ s.SameBeyondUnit n t ∧
      (∀ j, j ≠ d → (t.cop n).fpReg j = (s.cop n).fpReg j) ∧ (t.cop n).fpi = (s.cop n).fpi ∧
      State.CheckedErrors n (s.cop n).opX (s.pendingUnitError[n.toNat]'n.isLt) t) ∧
    (s.cfg.fp16 = { high := false, fill := .zeros } →
      let v := unpackFloat .fp16 ((s.cop n).fpReg i).toNat
      ∃ t, exec (.cvtf2f n i d .fp16 .fp32 y r) s = .next t ∧
        let u := unpackFloat .fp32 ((t.cop n).fpReg d).toNat
        (∀ neg m e, v = .finite neg m e → ∃ m' e', u = .finite neg m' e' ∧ -149 ≤ e' ∧
          m' * 2 ^ (e' + 149).toNat = m * 2 ^ (e + 149).toNat ∧ (t.cop n).csr = (s.cop n).csr) ∧
        (∀ neg, v = .inf neg → u = .inf neg ∧ (t.cop n).csr = (s.cop n).csr) ∧
        (∀ sig, v = .nan sig → u = .nan false ∧ (t.cop n).csr = (s.cop n).csr ||| (if sig then 0x200 else 0)))

/-- BSL, BSR, FADD, FSUB, FMUL and FFMA are refused by name: only their encodings survive (R186, R187, R288 to R291). -/
def Obligations.LostInstructionsRefused : Prop :=
  ∀ s : State,
    (∀ d v q c x w r, exec (.bsl d v q c x w r) s = .refused (.butterflyShiftLost "BSL") ∧
      exec (.bsr d v q c x w r) s = .refused (.butterflyShiftLost "BSR")) ∧
    ∀ n d a b c y r,
      exec (.fadd n d a b y r) s = .refused (.fpuArithmeticLost "FADD") ∧
      exec (.fsub n d a b y r) s = .refused (.fpuArithmeticLost "FSUB") ∧
      exec (.fmul n d a b y r) s = .refused (.fpuArithmeticLost "FMUL") ∧
      exec (.ffma n d a b c y r) s = .refused (.fpuArithmeticLost "FFMA")

end Statements
end

