-- ==== Sys2Proof/Machine/Assembly.lean ====
section
/-! DEFINITION. The assembler syntax as far as it survives (30_encoding.md R120 to R128, 40_und_pause_mov.md R146): from the
text of one line to an instruction. Text is a list of characters. No step depends on this file. -/

namespace Sys2Proof.Machine

/-! ### Registers, condition names and sizes -/

/-- A register operand (R122). Map 4 registers have no syntax. -/
inductive AnyReg where
  | gpr (i : BitVec 5)
  | sys (i : BitVec 5)
  | io (i : BitVec 5)
  | info (i : BitVec 5)
  | co (n : BitVec 3) (i : BitVec 5)
  deriving DecidableEq, Repr

/-- MAP(reg), the map number of a register operand (R122; 10_state.md R35). -/
def AnyReg.map : AnyReg → BitVec 4
  | .gpr _ => 0
  | .sys _ => 1
  | .io _ => 2
  | .info _ => 3
  | .co n _ => 1#1 ++ n

/-- The number of a register operand within its map. -/
def AnyReg.index : AnyReg → BitVec 5
  | .gpr i => i
  | .sys i => i
  | .io i => i
  | .info i => i
  | .co _ i => i

/-- The constants `byte`, `half` and `word` of the size operands (R125). -/
inductive SizeName where
  | byte
  | half
  | word
  deriving DecidableEq, Repr

/-- One operand of a line. Symbols stand for numbers a linker supplies (R123). -/
inductive AsmOperand where
  | reg (r : AnyReg)
  | shifted (i : BitVec 5) (n : BitVec 5)
  | size (n : SizeName)
  | number (v : Int)
  deriving DecidableEq, Repr

/-- One row of the table of condition-code short forms. -/
structure CondName where
  short : String
  cond : Cond
  canonical : Bool
  deriving DecidableEq, Repr

/-- The short forms of R126, with 0 spelled NV and 12 spelled NO (90_conflicts.md C17). -/
def condNames : List CondName :=
  [⟨"NV", .never, true⟩, ⟨"C", .carry, true⟩, ⟨"B", .carry, false⟩, ⟨"Z", .zero, true⟩, ⟨"EQ", .zero, false⟩,
   ⟨"V", .overflow, true⟩, ⟨"O", .overflow, false⟩, ⟨"CE", .carryOrEqual, true⟩, ⟨"BE", .carryOrEqual, false⟩,
   ⟨"LT", .signedLess, true⟩, ⟨"LE", .signedLessOrEq, true⟩, ⟨"N", .negative, true⟩, ⟨"S", .negative, false⟩,
   ⟨"P", .positive, true⟩, ⟨"NS", .positive, false⟩] ++
  [⟨"GT", .signedGreater, true⟩, ⟨"NLE", .signedGreater, false⟩, ⟨"GE", .signedGreaterOrEq, true⟩,
   ⟨"NLT", .signedGreaterOrEq, false⟩, ⟨"A", .above, true⟩, ⟨"NBE", .above, false⟩, ⟨"NCE", .above, false⟩,
   ⟨"NO", .notOverflow, true⟩, ⟨"NZ", .notZero, true⟩, ⟨"NE", .notZero, false⟩, ⟨"NC", .notCarry, true⟩,
   ⟨"NB", .notCarry, false⟩, ⟨"AE", .notCarry, false⟩, ⟨"AL", .always, true⟩]

/-- Mnemonics do not depend on case (R120). -/
def upperCase (t : List Char) : List Char := t.map Char.toUpper

/-- The condition a short form, already in upper case, names (R126). -/
def condOfShort (t : List Char) : Option Cond := (condNames.find? fun e => e.short.toList == t).map CondName.cond

/-- The spelling of a condition that a disassembler should prefer (R121). -/
def Cond.preferredShort (c : Cond) : Option String :=
  (condNames.find? fun e => e.canonical && e.cond == c).map CondName.short

/-! ### Reading text -/

/-- What follows `p` in `t`. -/
def stripPrefix (p : String) (t : List Char) : Option (List Char) :=
  if p.toList.isPrefixOf t then some (t.drop p.toList.length) else none

/-- Decimal digits after the number `n` (log 38). -/
def readDigits (n : Nat) : List Char → Option Nat
  | [] => some n
  | c :: cs => if c.isDigit then readDigits (10 * n + (c.toNat - 48)) cs else none

/-- A natural number in decimal. -/
def readNat : List Char → Option Nat
  | [] => none
  | c :: cs => readDigits 0 (c :: cs)

/-- An integer in decimal. -/
def readInt : List Char → Option Int
  | '-' :: cs => (readNat cs).map fun n => -(n : Int)
  | cs => (readNat cs).map fun n => (n : Int)

/-- A number below 32 after a prefix. -/
def readIndex (p : String) (t : List Char) : Option (BitVec 5) :=
  (stripPrefix p t).bind fun d => (readNat d).bind fun n => if n < 32 then some (BitVec.ofNat 5 n) else none

/-- `coNrM`: the slot is one digit below 8 (R122, 90_conflicts.md C5). -/
def readCoReg (t : List Char) : Option AnyReg :=
  match stripPrefix "co" t with
  | some (n :: rest) =>
    if n.isDigit && decide (n.toNat - 48 < 8) then (readIndex "r" rest).map (AnyReg.co (BitVec.ofNat 3 (n.toNat - 48)))
    else none
  | some [] => none
  | none => none

/-- A register by name (R122). -/
def readReg (t : List Char) : Option AnyReg :=
  if t == "sysctl".toList then some (.sys 0)
  else if t == "inttab".toList then some (.sys 2)
  else if t == "intret".toList then some (.sys 31)
  else
    ((readIndex "r" t).map AnyReg.gpr).orElse fun _ => ((readIndex "sys" t).map AnyReg.sys).orElse fun _ =>
      ((readIndex "io" t).map AnyReg.io).orElse fun _ => ((readIndex "info" t).map AnyReg.info).orElse fun _ =>
        readCoReg t

/-- A size constant by name (R125). -/
def readSize (t : List Char) : Option SizeName :=
  if t == "byte".toList then some .byte
  else if t == "half".toList then some .half
  else if t == "word".toList then some .word
  else none

/-- Without the blanks at either end. -/
def trimBlanks (t : List Char) : List Char :=
  ((t.dropWhile (· == ' ')).reverse.dropWhile (· == ' ')).reverse

/-- A shifted register, `GPR << ABSIMM5` (R122). -/
def readShifted (t : List Char) : Option AsmOperand :=
  let left := t.takeWhile (· != '<')
  match stripPrefix "<<" (t.drop left.length) with
  | some right =>
    match readIndex "r" (trimBlanks left), readIndex "" (trimBlanks right) with
    | some r, some n => some (.shifted r n)
    | some _, none => none
    | none, _ => none
  | none => none

/-- One operand. -/
def readOperand (t : List Char) : Option AsmOperand :=
  ((readReg t).map AsmOperand.reg).orElse fun _ => ((readSize t).map AsmOperand.size).orElse fun _ =>
    ((readInt t).map AsmOperand.number).orElse fun _ => readShifted t

/-- The text between commas (R120). -/
def splitCommas : List Char → List (List Char)
  | [] => [[]]
  | c :: cs =>
    if c == ',' then [] :: splitCommas cs
    else
      match splitCommas cs with
      | [] => [[c]]
      | w :: ws => (c :: w) :: ws

/-! ### Operand kinds -/

/-- An unsigned absolute immediate of `n` bits: 0 to 2^n - 1 (R123). -/
def absImm (n : Nat) : AsmOperand → Option (BitVec n)
  | .number v => if 0 ≤ v ∧ v < 2 ^ n then some (BitVec.ofInt n v) else none
  | .reg _ => none
  | .shifted _ _ => none
  | .size _ => none

/-- A signed immediate of `n` bits: -2^(n-1) to 2^(n-1) - 1 (R123). -/
def signedImm (n : Nat) : AsmOperand → Option (BitVec n)
  | .number v => if -(2 ^ (n - 1)) ≤ v ∧ v < 2 ^ (n - 1) then some (BitVec.ofInt n v) else none
  | .reg _ => none
  | .shifted _ _ => none
  | .size _ => none

/-- BYTESZ: the 2-bit field holding lg of a size of 1, 2 or 4 bytes (R125). -/
def byteSizeField : AsmOperand → Option (BitVec 2)
  | .size .byte => some 0
  | .size .half => some 1
  | .size .word => some 2
  | .number v => if v = 1 then some 0 else if v = 2 then some 1 else if v = 4 then some 2 else none
  | .reg _ => none
  | .shifted _ _ => none

/-- BITW: the 5-bit field of a width of 1 to 32 bits, 32 encoded as 0 (R125). -/
def bitWidthField : AsmOperand → Option (BitVec 5)
  | .size .byte => some 8
  | .size .half => some 16
  | .size .word => some 0
  | .number v => if 1 ≤ v ∧ v ≤ 32 then some (BitVec.ofInt 5 v) else none
  | .reg _ => none
  | .shifted _ _ => none

/-- PCREL16: the byte offset of LRA that reaches `target` from the next instruction's address `npc`, when 16 signed bits can
(R124). -/
def pcrel16Field (npc target : Word) : Option (BitVec 16) :=
  let o := (target - npc).extractLsb' 0 16
  if npc + lraOffset true o = target then some o else none

/-- The jump operand: the offset field of JMP that reaches `target` from `npc`, when it is a multiple of 4 that 15 bits of
words can express (R124, 90_conflicts.md C13). -/
def jumpField (npc target : Word) : Option (BitVec 15) :=
  let o := (target - npc).extractLsb' 2 15
  if npc + jmpDisp o = target then some o else none

/-- `HI sym` (R123). -/
def hiHalf (v : Word) : BitVec 16 := v.extractLsb' 16 16

/-- `LO sym` (R123). -/
def loHalf (v : Word) : BitVec 16 := v.extractLsb' 0 16

/-- The relocation names, `R_MICRON_<n>` and the rest; the spec gives no numbers and no field formulas (R123). -/
inductive Relocation where
  | plain (n : Nat)
  | lo16
  | hi16
  | pc16
  | loPc16
  | hiPc16
  | jmpOff
  deriving DecidableEq, Repr

/-! ### The surviving charts (R127, R128, R146) -/

/-- The three operand forms of MOV and MOVL (R146). -/
def moveForm (l : Bool) (c : Cond) : List AsmOperand → Option Instr
  | [.reg (.gpr d), .reg s] => some (.mov d s.index l c false s.map)
  | [.reg d, .reg (.gpr s)] => some (.mov d.index s l c true d.map)
  | _ => none

/-- ST and PUSH: address register, value, size; without a size 4 bytes; PUSH of one operand through r30 (R127). -/
def storeForm (push : Bool) : List AsmOperand → Option Instr
  | [.reg (.gpr d), .reg (.gpr s), w] => (byteSizeField w).map fun k => .st d s k push
  | [.reg (.gpr d), .reg (.gpr s)] => some (.st d s 2 push)
  | [.reg (.gpr s)] => if push then some (.st 30 s 2 true) else none
  | _ => none

/-- LD and POP: destination, address register, size; without a size 4 bytes; POP of one operand through r30 (R127). -/
def loadForm (pop : Bool) : List AsmOperand → Option Instr
  | [.reg (.gpr d), .reg (.gpr s), w] => (byteSizeField w).map fun k => .ld d s k pop
  | [.reg (.gpr d), .reg (.gpr s)] => some (.ld d s 2 pop)
  | [.reg (.gpr d)] => if pop then some (.ld d 30 2 true) else none
  | _ => none

/-- PAUSE k (R127). -/
def pauseForm : List AsmOperand → Option Instr
  | [k] => (absImm 6 k).map Instr.pause
  | _ => none

/-- A mnemonic that takes no operand. -/
def bareForm (i : Instr) : List AsmOperand → Option Instr
  | [] => some i
  | _ :: _ => none

/-- What follows MOV in a mnemonic: the latency bit and the condition, AL when none is written (R127, R146). -/
def moveSuffix (t : List Char) : Option (Bool × Cond) :=
  match t, condOfShort t with
  | [], _ => some (false, .always)
  | _ :: _, some c => some (false, c)
  | ['L'], none => some (true, .always)
  | 'L' :: rest, none => (condOfShort rest).map fun c => (true, c)
  | _ :: _, none => none

/-- The instruction of a surviving chart with this mnemonic and these operands (R127). -/
def assembleForm (mnemonic : List Char) (ops : List AsmOperand) : Option Instr :=
  let m := upperCase mnemonic
  if m == "UND".toList then bareForm (.und00 0) ops
  else if m == "NOP".toList then bareForm (.pause 0) ops
  else if m == "PAUSE".toList then pauseForm ops
  else if m == "ST".toList then storeForm false ops
  else if m == "PUSH".toList then storeForm true ops
  else if m == "LD".toList then loadForm false ops
  else if m == "POP".toList then loadForm true ops
  else (stripPrefix "MOV" m).bind fun rest => (moveSuffix rest).bind fun lc => moveForm lc.1 lc.2 ops

/-- The operands of a line, when every one of them can be read. -/
def readOperands : List (List Char) → Option (List AsmOperand)
  | [] => some []
  | t :: ts => (readOperand (trimBlanks t)).bind fun o => (readOperands ts).map fun os => o :: os

/-- One line: a mnemonic, then operands separated by commas (R120). -/
def assembleLine (line : List Char) : Option Instr :=
  let t := trimBlanks line
  let m := t.takeWhile (· != ' ')
  match trimBlanks (t.drop m.length) with
  | [] => assembleForm m []
  | c :: cs => (readOperands (splitCommas (c :: cs))).bind (assembleForm m)

end Sys2Proof.Machine
end

