-- ==== Sys2Proof/Machine/Psabi.lean ====
section
/-! DEFINITION. The calling convention (49_psabi.md R320 to R326, 43_branches.md R206) as plain data and functions. Nothing of
it is enforced by hardware, and no step depends on this file. -/

namespace Sys2Proof.Machine

/-! ### Data types -/

/-- The types R320 gives a size. -/
inductive CType where
  | bool
  | char
  | short
  | int
  | long
  | longLong
  | float
  | double
  | longDouble
  | pointer
  | intptr
  | sizeT
  | intmax
  | wchar
  deriving DecidableEq, Repr

/-- Size in bytes (R320). -/
def CType.size : CType → Nat
  | .bool => 1
  | .char => 1
  | .short => 2
  | .int => 4
  | .long => 4
  | .longLong => 8
  | .float => 4
  | .double => 8
  | .longDouble => 8
  | .pointer => 4
  | .intptr => 4
  | .sizeT => 4
  | .intmax => 8
  | .wchar => 2

/-- The alignment of a primitive of `n` bytes: `n` rounded up to a power of two, at most 4 (R321). -/
def primitiveAlign (n : Nat) : Nat := if n ≤ 1 then 1 else if n ≤ 2 then 2 else 4

/-! ### Registers -/

/-- What the ABI uses a general register for (R322). -/
inductive RegRole where
  | constantZero
  | parameterOrReturn
  | parameter
  | scratch
  | specialScratch
  | saved
  | reserved
  | stackPointer
  | returnPointer
  deriving DecidableEq, Repr

/-- The Register Overview table (R322). -/
def regRole (i : BitVec 5) : RegRole :=
  if i = 0 then .constantZero
  else if i.toNat ≤ 2 then .parameterOrReturn
  else if i.toNat ≤ 10 then .parameter
  else if i.toNat ≤ 14 then .scratch
  else if i = 15 then .specialScratch
  else if i.toNat ≤ 27 then .saved
  else if i.toNat ≤ 29 then .reserved
  else if i = 30 then .stackPointer
  else .returnPointer

/-- Whether a general register holds its value across a call (R322). -/
def preservedAcrossCall (i : BitVec 5) : Bool := i = 0 || decide (16 ≤ i.toNat)

/-- Whether a called function may change the registers of map `m`: the I/O transfer registers of Map 2 and the coprocessor
registers of maps 8 to 15 are not preserved (R323, 90_conflicts.md C5). -/
def mapNotPreserved (m : BitVec 4) : Bool := m == 2 || decide (8 ≤ m.toNat)

/-- A direct call (R206). -/
def callDirect (o : BitVec 15) : Instr := .jmp .always 31 o

/-- A call through a register (R206). -/
def callRegister (r : BitVec 5) : Instr := .jmpr .always 31 r

/-- A return (R206). -/
def returnInstr : Instr := .jmpr .always 0 31

/-! ### Parameters and return values -/

/-- A parameter or return value: its size, whether it is a Non-Trivial Aggregate, and whether a 4-byte chunk of it is padding
only (R325). -/
structure AbiValue where
  size : Nat
  nonTrivial : Bool
  lowPadding : Bool
  highPadding : Bool
  deriving DecidableEq, Repr

/-- A value without padding chunks. -/
def AbiValue.plain (n : Nat) : AbiValue := { size := n, nonTrivial := false, lowPadding := false, highPadding := false }

/-- Passed in memory: larger than 8 bytes, or a Non-Trivial Aggregate (R325). -/
def AbiValue.inMemory (v : AbiValue) : Bool := decide (8 < v.size) || v.nonTrivial

/-- What is passed directly: a value in memory is replaced by a 4-byte pointer to it (R325). -/
def AbiValue.direct (v : AbiValue) : AbiValue := if v.inMemory then .plain 4 else v

/-- The 4-byte chunks passed, least significant first, without those absent or all padding (R325). -/
def AbiValue.chunks (v : AbiValue) : List Nat :=
  (if 0 < v.size && !v.lowPadding then [0] else []) ++ (if 4 < v.size && !v.highPadding then [1] else [])

/-- Where a parameter is found on entry: its chunks in registers, or on the stack. -/
inductive ParamPlace where
  | registers (rs : List Nat)
  | stack
  deriving DecidableEq, Repr

/-- Parameters in order from register `next` on; once one does not fit in r1 to r10 it and all later ones are on the stack
(R325). -/
def placeFrom (next : Nat) : List AbiValue → List ParamPlace
  | [] => []
  | v :: vs =>
    let k := v.direct.chunks.length
    if next + k ≤ 11 then .registers (List.range' next k) :: placeFrom (next + k) vs
    else .stack :: placeFrom 12 vs

/-- A return value in memory inserts an implicit first parameter, the pointer to its storage, returned in r1 (R325). -/
def withReturnPointer (ret : AbiValue) (params : List AbiValue) : List AbiValue :=
  if ret.inMemory then .plain 4 :: params else params

/-- Where each parameter, the implicit one included, is found on entry (R325). -/
def placeParams (ret : AbiValue) (params : List AbiValue) : List ParamPlace :=
  placeFrom 1 (withReturnPointer ret params)

/-- The registers a return value comes back in, from r1 on (R325). -/
def returnRegisters (ret : AbiValue) : List Nat := List.range' 1 ret.direct.chunks.length

/-- Round `n` up to a multiple of `a`. -/
def roundUpTo (n a : Nat) : Nat := (n + a - 1) / a * a

/-- Distance of each stack parameter, left to right, below the 4-byte aligned top of the parameter area, pushed right to left
with each at its own alignment (R325). -/
def stackDistances : List Nat → List Nat
  | [] => []
  | n :: ns =>
    match stackDistances ns with
    | [] => [roundUpTo n (primitiveAlign n)]
    | d :: ds => roundUpTo (d + n) (primitiveAlign n) :: d :: ds

/-- Offsets from r30 on entry of the stack parameters, left to right, given their sizes: the leftmost at r30, which is 4-byte
aligned, with up to 3 bytes inserted after it (R325, R326, log 39). -/
def stackOffsets (sizes : List Nat) : List Nat :=
  match stackDistances sizes with
  | [] => []
  | d :: ds => 0 :: ds.map fun e => roundUpTo d 4 - e

/-- The OSABI value OSABISTANDALONE (R328). -/
def osabiStandalone : Nat := 255

end Sys2Proof.Machine
end

