-- ==== Sys2Proof/Laws/Assembly.lean ====
section
/-! SUPPORT. Laws of the assembler's and the psABI's definitions, and the sample lines of 95_test_vectors.md S1 to S10. -/

namespace Sys2Proof.Machine

/-- A jump assembled for a target goes there (R124, 43_branches.md R203). -/
theorem jumpField_lands {npc target : Word} {o : BitVec 15} (h : jumpField npc target = some o) :
    npc + jmpDisp o = target := by
  simp only [jumpField] at h
  split at h
  · cases h
    assumption
  · cases h

/-- An LRA assembled for an address gives that address (R124, 41_load_store.md R163). -/
theorem pcrel16Field_lands {npc target : Word} {o : BitVec 16} (h : pcrel16Field npc target = some o) :
    npc + lraOffset true o = target := by
  simp only [pcrel16Field] at h
  split at h
  · cases h
    assumption
  · cases h

/-- Every condition has a preferred spelling, and the spelling names it (R121, R126). -/
theorem preferredShort_reads (c : Cond) : ((Cond.preferredShort c).bind fun t => condOfShort t.toList) = some c := by
  cases c <;> decide

/-- The two halves of an address (R123). -/
theorem hi_lo_append (v : Word) : hiHalf v ++ loHalf v = v := by
  apply BitVec.eq_of_toNat_eq
  have := v.isLt
  simp only [hiHalf, loHalf, BitVec.toNat_append, BitVec.extractLsb'_toNat, Nat.shiftRight_zero]
  rw [Nat.shiftLeft_eq, Nat.mul_comm, ← Nat.two_pow_add_eq_or_of_lt (Nat.mod_lt _ (by decide)), Nat.shiftRight_eq_div_pow]
  omega

/-- S7, S8: `NOP` and `UND`; R120: case does not matter. -/
theorem test_asm_nop : (assembleLine "nop".toList).map encode = some 0x00000001 ∧
    (assembleLine "UND".toList).map encode = some 0 := by decide +kernel

/-- S10: `MOV r3, r7` and `MOVL r3, r7`; V-MOV's `MOVZ r3, r7`; S2: `MOV sysctl, r1` is `MOV sys0, r1`. -/
theorem test_asm_mov : (assembleLine "MOV r3, r7".toList).map encode = some 0x01E0E302 ∧
    (assembleLine "MOVL r3, r7".toList).map encode = some 0x01F0E302 ∧
    (assembleLine "MOVz r3,r7".toList).map encode = some 0x0040E302 ∧
    (assembleLine "MOV sysctl, r1".toList).map encode = some 0x07E02002 ∧
    assembleLine "MOV sysctl, r1".toList = assembleLine "MOV sys0, r1".toList ∧
    assembleLine "MOVLLE co7r25, r1".toList = some (.mov 25 1 true .signedLessOrEq true 15) ∧
    assembleLine "MOV io1, io2".toList = none := by decide +kernel

/-- S5, S9: sizes by name and the one-operand PUSH and POP. -/
theorem test_asm_memory : (assembleLine "PUSH r1".toList).map encode = some 0x80083E03 ∧
    (assembleLine "POP r5".toList).map encode = some 0x800BC504 ∧
    (assembleLine "ST r2, r1, half".toList).map encode = some 0x00042203 ∧
    assembleLine "LD r1, r2".toList = some (.ld 1 2 2 false) ∧
    assembleLine "LD r1, r2, 3".toList = none ∧ assembleLine "PAUSE 64".toList = none := by decide +kernel

/-- S4: BITW of `byte` and `word`; R122: a shifted register. -/
theorem test_asm_operands : bitWidthField (.size .byte) = some 8 ∧ bitWidthField (.size .word) = some 0 ∧
    bitWidthField (.number 32) = some 0 ∧ readOperand "r3 << 7".toList = some (.shifted 3 7) := by decide +kernel

/-- R124: JMP from 0x1000 to itself, and the ends of its range. -/
theorem test_asm_jump : jumpField 0x1004 0x1000 = some 0x7FFF ∧ jumpField 0x20000 0x2FFFC = some 0x3FFF ∧
    jumpField 0x20000 0x30000 = none ∧ jumpField 0x1004 0x1001 = none := by decide

/-- R326: `int f(int, long long, char)`, `long long g(void)`, and the eleventh int at r30. -/
theorem test_psabi_worked :
    placeParams (.plain 4) [.plain 4, .plain 8, .plain 1] = [.registers [1], .registers [2, 3], .registers [4]] ∧
    returnRegisters (.plain 8) = [1, 2] ∧
    placeParams (.plain 4) (List.replicate 11 (.plain 4)) =
      (List.range' 1 10).map (fun r => .registers [r]) ++ [.stack] ∧
    stackOffsets [4] = [0] ∧ stackOffsets [1, 2, 8] = [0, 2, 4] := by decide

end Sys2Proof.Machine
end

