-- ==== Sys2Proof/Laws/State.lean ====
section
/-! SUPPORT. What each primitive update of the state does to each field, so that no proof unfolds a record update. -/

namespace Sys2Proof.Machine

variable (s : State)


/-! ### `State.setReg` -/

@[simp] theorem State.setReg_pc (i : BitVec 5) (v : Word) : (s.setReg i v).pc = s.pc := by
  unfold State.setReg; split <;> rfl
@[simp] theorem State.setReg_flags (i : BitVec 5) (v : Word) : (s.setReg i v).flags = s.flags := by
  unfold State.setReg; split <;> rfl
@[simp] theorem State.setReg_sysctl (i : BitVec 5) (v : Word) : (s.setReg i v).sysctl = s.sysctl := by
  unfold State.setReg; split <;> rfl
@[simp] theorem State.setReg_inttab (i : BitVec 5) (v : Word) : (s.setReg i v).inttab = s.inttab := by
  unfold State.setReg; split <;> rfl
@[simp] theorem State.setReg_intret (i : BitVec 5) (v : Word) : (s.setReg i v).intret = s.intret := by
  unfold State.setReg; split <;> rfl
@[simp] theorem State.setReg_io (i : BitVec 5) (v : Word) : (s.setReg i v).io = s.io := by
  unfold State.setReg; split <;> rfl
@[simp] theorem State.setReg_copen (i : BitVec 5) (v : Word) : (s.setReg i v).copen = s.copen := by
  unfold State.setReg; split <;> rfl
@[simp] theorem State.setReg_cops (i : BitVec 5) (v : Word) : (s.setReg i v).cops = s.cops := by
  unfold State.setReg; split <;> rfl
@[simp] theorem State.setReg_status (i : BitVec 5) (v : Word) : (s.setReg i v).status = s.status := by
  unfold State.setReg; split <;> rfl
@[simp] theorem State.setReg_pendingNmi (i : BitVec 5) (v : Word) : (s.setReg i v).pendingNmi = s.pendingNmi := by
  unfold State.setReg; split <;> rfl
@[simp] theorem State.setReg_pendingIrq (i : BitVec 5) (v : Word) : (s.setReg i v).pendingIrq = s.pendingIrq := by
  unfold State.setReg; split <;> rfl
@[simp] theorem State.setReg_pendingUnitError (i : BitVec 5) (v : Word) : (s.setReg i v).pendingUnitError = s.pendingUnitError := by
  unfold State.setReg; split <;> rfl
@[simp] theorem State.setReg_mem (i : BitVec 5) (v : Word) : (s.setReg i v).mem = s.mem := by
  unfold State.setReg; split <;> rfl
@[simp] theorem State.setReg_cfg (i : BitVec 5) (v : Word) : (s.setReg i v).cfg = s.cfg := by
  unfold State.setReg; split <;> rfl
@[simp] theorem State.setReg_storedTo (i : BitVec 5) (v : Word) : (s.setReg i v).storedTo = s.storedTo := by
  unfold State.setReg; split <;> rfl
@[simp] theorem State.setReg_schedule (i : BitVec 5) (v : Word) : (s.setReg i v).schedule = s.schedule := by
  unfold State.setReg; split <;> rfl
@[simp] theorem State.setReg_intOrder (i : BitVec 5) (v : Word) : (s.setReg i v).intOrder = s.intOrder := by
  unfold State.setReg; split <;> rfl
@[simp] theorem State.setReg_portAnswers (i : BitVec 5) (v : Word) : (s.setReg i v).portAnswers = s.portAnswers := by
  unfold State.setReg; split <;> rfl
@[simp] theorem State.setReg_ioTrace (i : BitVec 5) (v : Word) : (s.setReg i v).ioTrace = s.ioTrace := by
  unfold State.setReg; split <;> rfl
@[simp] theorem State.setReg_fresh (i : BitVec 5) (v : Word) : (s.setReg i v).fresh = s.fresh := by
  unfold State.setReg; split <;> rfl

/-! ### `State.advance` -/

@[simp] theorem State.advance_x : s.advance.x = s.x := rfl
@[simp] theorem State.advance_pc : s.advance.pc = s.pc + 4 := rfl
@[simp] theorem State.advance_flags : s.advance.flags = s.flags := rfl
@[simp] theorem State.advance_sysctl : s.advance.sysctl = s.sysctl := rfl
@[simp] theorem State.advance_inttab : s.advance.inttab = s.inttab := rfl
@[simp] theorem State.advance_intret : s.advance.intret = s.intret := rfl
@[simp] theorem State.advance_io : s.advance.io = s.io := rfl
@[simp] theorem State.advance_copen : s.advance.copen = s.copen := rfl
@[simp] theorem State.advance_cops : s.advance.cops = s.cops := rfl
@[simp] theorem State.advance_status : s.advance.status = s.status := rfl
@[simp] theorem State.advance_pendingNmi : s.advance.pendingNmi = s.pendingNmi := rfl
@[simp] theorem State.advance_pendingIrq : s.advance.pendingIrq = s.pendingIrq := rfl
@[simp] theorem State.advance_pendingUnitError : s.advance.pendingUnitError = s.pendingUnitError := rfl
@[simp] theorem State.advance_mem : s.advance.mem = s.mem := rfl
@[simp] theorem State.advance_cfg : s.advance.cfg = s.cfg := rfl
@[simp] theorem State.advance_storedTo : s.advance.storedTo = s.storedTo := rfl
@[simp] theorem State.advance_schedule : s.advance.schedule = s.schedule := rfl
@[simp] theorem State.advance_intOrder : s.advance.intOrder = s.intOrder := rfl
@[simp] theorem State.advance_portAnswers : s.advance.portAnswers = s.portAnswers := rfl
@[simp] theorem State.advance_ioTrace : s.advance.ioTrace = s.ioTrace := rfl
@[simp] theorem State.advance_fresh : s.advance.fresh = s.fresh := rfl

/-! ### `State.goto` -/

@[simp] theorem State.goto_x (a : Word) : (s.goto a).x = s.x := rfl
@[simp] theorem State.goto_pc (a : Word) : (s.goto a).pc = a := rfl
@[simp] theorem State.goto_flags (a : Word) : (s.goto a).flags = s.flags := rfl
@[simp] theorem State.goto_sysctl (a : Word) : (s.goto a).sysctl = s.sysctl := rfl
@[simp] theorem State.goto_inttab (a : Word) : (s.goto a).inttab = s.inttab := rfl
@[simp] theorem State.goto_intret (a : Word) : (s.goto a).intret = s.intret := rfl
@[simp] theorem State.goto_io (a : Word) : (s.goto a).io = s.io := rfl
@[simp] theorem State.goto_copen (a : Word) : (s.goto a).copen = s.copen := rfl
@[simp] theorem State.goto_cops (a : Word) : (s.goto a).cops = s.cops := rfl
@[simp] theorem State.goto_status (a : Word) : (s.goto a).status = s.status := rfl
@[simp] theorem State.goto_pendingNmi (a : Word) : (s.goto a).pendingNmi = s.pendingNmi := rfl
@[simp] theorem State.goto_pendingIrq (a : Word) : (s.goto a).pendingIrq = s.pendingIrq := rfl
@[simp] theorem State.goto_pendingUnitError (a : Word) : (s.goto a).pendingUnitError = s.pendingUnitError := rfl
@[simp] theorem State.goto_mem (a : Word) : (s.goto a).mem = s.mem := rfl
@[simp] theorem State.goto_cfg (a : Word) : (s.goto a).cfg = s.cfg := rfl
@[simp] theorem State.goto_storedTo (a : Word) : (s.goto a).storedTo = s.storedTo := rfl
@[simp] theorem State.goto_schedule (a : Word) : (s.goto a).schedule = s.schedule := rfl
@[simp] theorem State.goto_intOrder (a : Word) : (s.goto a).intOrder = s.intOrder := rfl
@[simp] theorem State.goto_portAnswers (a : Word) : (s.goto a).portAnswers = s.portAnswers := rfl
@[simp] theorem State.goto_ioTrace (a : Word) : (s.goto a).ioTrace = s.ioTrace := rfl
@[simp] theorem State.goto_fresh (a : Word) : (s.goto a).fresh = s.fresh := rfl

/-! ### `State.setFlagsUnless` -/

@[simp] theorem State.setFlagsUnless_x (c : Bool) (f : BitVec 4) : (s.setFlagsUnless c f).x = s.x := by
  unfold State.setFlagsUnless; split <;> rfl
@[simp] theorem State.setFlagsUnless_pc (c : Bool) (f : BitVec 4) : (s.setFlagsUnless c f).pc = s.pc := by
  unfold State.setFlagsUnless; split <;> rfl
@[simp] theorem State.setFlagsUnless_flags (c : Bool) (f : BitVec 4) : (s.setFlagsUnless c f).flags = if c then s.flags else f := by
  unfold State.setFlagsUnless; split <;> rfl
@[simp] theorem State.setFlagsUnless_sysctl (c : Bool) (f : BitVec 4) : (s.setFlagsUnless c f).sysctl = s.sysctl := by
  unfold State.setFlagsUnless; split <;> rfl
@[simp] theorem State.setFlagsUnless_inttab (c : Bool) (f : BitVec 4) : (s.setFlagsUnless c f).inttab = s.inttab := by
  unfold State.setFlagsUnless; split <;> rfl
@[simp] theorem State.setFlagsUnless_intret (c : Bool) (f : BitVec 4) : (s.setFlagsUnless c f).intret = s.intret := by
  unfold State.setFlagsUnless; split <;> rfl
@[simp] theorem State.setFlagsUnless_io (c : Bool) (f : BitVec 4) : (s.setFlagsUnless c f).io = s.io := by
  unfold State.setFlagsUnless; split <;> rfl
@[simp] theorem State.setFlagsUnless_copen (c : Bool) (f : BitVec 4) : (s.setFlagsUnless c f).copen = s.copen := by
  unfold State.setFlagsUnless; split <;> rfl
@[simp] theorem State.setFlagsUnless_cops (c : Bool) (f : BitVec 4) : (s.setFlagsUnless c f).cops = s.cops := by
  unfold State.setFlagsUnless; split <;> rfl
@[simp] theorem State.setFlagsUnless_status (c : Bool) (f : BitVec 4) : (s.setFlagsUnless c f).status = s.status := by
  unfold State.setFlagsUnless; split <;> rfl
@[simp] theorem State.setFlagsUnless_pendingNmi (c : Bool) (f : BitVec 4) : (s.setFlagsUnless c f).pendingNmi = s.pendingNmi := by
  unfold State.setFlagsUnless; split <;> rfl
@[simp] theorem State.setFlagsUnless_pendingIrq (c : Bool) (f : BitVec 4) : (s.setFlagsUnless c f).pendingIrq = s.pendingIrq := by
  unfold State.setFlagsUnless; split <;> rfl
@[simp] theorem State.setFlagsUnless_pendingUnitError (c : Bool) (f : BitVec 4) : (s.setFlagsUnless c f).pendingUnitError = s.pendingUnitError := by
  unfold State.setFlagsUnless; split <;> rfl
@[simp] theorem State.setFlagsUnless_mem (c : Bool) (f : BitVec 4) : (s.setFlagsUnless c f).mem = s.mem := by
  unfold State.setFlagsUnless; split <;> rfl
@[simp] theorem State.setFlagsUnless_cfg (c : Bool) (f : BitVec 4) : (s.setFlagsUnless c f).cfg = s.cfg := by
  unfold State.setFlagsUnless; split <;> rfl
@[simp] theorem State.setFlagsUnless_storedTo (c : Bool) (f : BitVec 4) : (s.setFlagsUnless c f).storedTo = s.storedTo := by
  unfold State.setFlagsUnless; split <;> rfl
@[simp] theorem State.setFlagsUnless_schedule (c : Bool) (f : BitVec 4) : (s.setFlagsUnless c f).schedule = s.schedule := by
  unfold State.setFlagsUnless; split <;> rfl
@[simp] theorem State.setFlagsUnless_intOrder (c : Bool) (f : BitVec 4) : (s.setFlagsUnless c f).intOrder = s.intOrder := by
  unfold State.setFlagsUnless; split <;> rfl
@[simp] theorem State.setFlagsUnless_portAnswers (c : Bool) (f : BitVec 4) : (s.setFlagsUnless c f).portAnswers = s.portAnswers := by
  unfold State.setFlagsUnless; split <;> rfl
@[simp] theorem State.setFlagsUnless_ioTrace (c : Bool) (f : BitVec 4) : (s.setFlagsUnless c f).ioTrace = s.ioTrace := by
  unfold State.setFlagsUnless; split <;> rfl
@[simp] theorem State.setFlagsUnless_fresh (c : Bool) (f : BitVec 4) : (s.setFlagsUnless c f).fresh = s.fresh := by
  unfold State.setFlagsUnless; split <;> rfl

/-! ### `State.setIoReg` -/

@[simp] theorem State.setIoReg_x (i : BitVec 5) (v : Word) : (s.setIoReg i v).x = s.x := rfl
@[simp] theorem State.setIoReg_pc (i : BitVec 5) (v : Word) : (s.setIoReg i v).pc = s.pc := rfl
@[simp] theorem State.setIoReg_flags (i : BitVec 5) (v : Word) : (s.setIoReg i v).flags = s.flags := rfl
@[simp] theorem State.setIoReg_sysctl (i : BitVec 5) (v : Word) : (s.setIoReg i v).sysctl = s.sysctl := rfl
@[simp] theorem State.setIoReg_inttab (i : BitVec 5) (v : Word) : (s.setIoReg i v).inttab = s.inttab := rfl
@[simp] theorem State.setIoReg_intret (i : BitVec 5) (v : Word) : (s.setIoReg i v).intret = s.intret := rfl
@[simp] theorem State.setIoReg_io (i : BitVec 5) (v : Word) : (s.setIoReg i v).io = s.io.set i.toNat v i.isLt := rfl
@[simp] theorem State.setIoReg_copen (i : BitVec 5) (v : Word) : (s.setIoReg i v).copen = s.copen := rfl
@[simp] theorem State.setIoReg_cops (i : BitVec 5) (v : Word) : (s.setIoReg i v).cops = s.cops := rfl
@[simp] theorem State.setIoReg_status (i : BitVec 5) (v : Word) : (s.setIoReg i v).status = s.status := rfl
@[simp] theorem State.setIoReg_pendingNmi (i : BitVec 5) (v : Word) : (s.setIoReg i v).pendingNmi = s.pendingNmi := rfl
@[simp] theorem State.setIoReg_pendingIrq (i : BitVec 5) (v : Word) : (s.setIoReg i v).pendingIrq = s.pendingIrq := rfl
@[simp] theorem State.setIoReg_pendingUnitError (i : BitVec 5) (v : Word) : (s.setIoReg i v).pendingUnitError = s.pendingUnitError := rfl
@[simp] theorem State.setIoReg_mem (i : BitVec 5) (v : Word) : (s.setIoReg i v).mem = s.mem := rfl
@[simp] theorem State.setIoReg_cfg (i : BitVec 5) (v : Word) : (s.setIoReg i v).cfg = s.cfg := rfl
@[simp] theorem State.setIoReg_storedTo (i : BitVec 5) (v : Word) : (s.setIoReg i v).storedTo = s.storedTo := rfl
@[simp] theorem State.setIoReg_schedule (i : BitVec 5) (v : Word) : (s.setIoReg i v).schedule = s.schedule := rfl
@[simp] theorem State.setIoReg_intOrder (i : BitVec 5) (v : Word) : (s.setIoReg i v).intOrder = s.intOrder := rfl
@[simp] theorem State.setIoReg_portAnswers (i : BitVec 5) (v : Word) : (s.setIoReg i v).portAnswers = s.portAnswers := rfl
@[simp] theorem State.setIoReg_ioTrace (i : BitVec 5) (v : Word) : (s.setIoReg i v).ioTrace = s.ioTrace := rfl
@[simp] theorem State.setIoReg_fresh (i : BitVec 5) (v : Word) : (s.setIoReg i v).fresh = s.fresh := rfl

/-! ### `State.setCop` -/

@[simp] theorem State.setCop_x (n : BitVec 3) (c : Cop) : (s.setCop n c).x = s.x := rfl
@[simp] theorem State.setCop_pc (n : BitVec 3) (c : Cop) : (s.setCop n c).pc = s.pc := rfl
@[simp] theorem State.setCop_flags (n : BitVec 3) (c : Cop) : (s.setCop n c).flags = s.flags := rfl
@[simp] theorem State.setCop_sysctl (n : BitVec 3) (c : Cop) : (s.setCop n c).sysctl = s.sysctl := rfl
@[simp] theorem State.setCop_inttab (n : BitVec 3) (c : Cop) : (s.setCop n c).inttab = s.inttab := rfl
@[simp] theorem State.setCop_intret (n : BitVec 3) (c : Cop) : (s.setCop n c).intret = s.intret := rfl
@[simp] theorem State.setCop_io (n : BitVec 3) (c : Cop) : (s.setCop n c).io = s.io := rfl
@[simp] theorem State.setCop_copen (n : BitVec 3) (c : Cop) : (s.setCop n c).copen = s.copen := rfl
@[simp] theorem State.setCop_cops (n : BitVec 3) (c : Cop) : (s.setCop n c).cops = s.cops.set n.toNat c n.isLt := rfl
@[simp] theorem State.setCop_status (n : BitVec 3) (c : Cop) : (s.setCop n c).status = s.status := rfl
@[simp] theorem State.setCop_pendingNmi (n : BitVec 3) (c : Cop) : (s.setCop n c).pendingNmi = s.pendingNmi := rfl
@[simp] theorem State.setCop_pendingIrq (n : BitVec 3) (c : Cop) : (s.setCop n c).pendingIrq = s.pendingIrq := rfl
@[simp] theorem State.setCop_pendingUnitError (n : BitVec 3) (c : Cop) : (s.setCop n c).pendingUnitError = s.pendingUnitError := rfl
@[simp] theorem State.setCop_mem (n : BitVec 3) (c : Cop) : (s.setCop n c).mem = s.mem := rfl
@[simp] theorem State.setCop_cfg (n : BitVec 3) (c : Cop) : (s.setCop n c).cfg = s.cfg := rfl
@[simp] theorem State.setCop_storedTo (n : BitVec 3) (c : Cop) : (s.setCop n c).storedTo = s.storedTo := rfl
@[simp] theorem State.setCop_schedule (n : BitVec 3) (c : Cop) : (s.setCop n c).schedule = s.schedule := rfl
@[simp] theorem State.setCop_intOrder (n : BitVec 3) (c : Cop) : (s.setCop n c).intOrder = s.intOrder := rfl
@[simp] theorem State.setCop_portAnswers (n : BitVec 3) (c : Cop) : (s.setCop n c).portAnswers = s.portAnswers := rfl
@[simp] theorem State.setCop_ioTrace (n : BitVec 3) (c : Cop) : (s.setCop n c).ioTrace = s.ioTrace := rfl
@[simp] theorem State.setCop_fresh (n : BitVec 3) (c : Cop) : (s.setCop n c).fresh = s.fresh := rfl

/-! ### `State.setUnitError` -/

@[simp] theorem State.setUnitError_x (n : BitVec 3) (b : Bool) : (s.setUnitError n b).x = s.x := rfl
@[simp] theorem State.setUnitError_pc (n : BitVec 3) (b : Bool) : (s.setUnitError n b).pc = s.pc := rfl
@[simp] theorem State.setUnitError_flags (n : BitVec 3) (b : Bool) : (s.setUnitError n b).flags = s.flags := rfl
@[simp] theorem State.setUnitError_sysctl (n : BitVec 3) (b : Bool) : (s.setUnitError n b).sysctl = s.sysctl := rfl
@[simp] theorem State.setUnitError_inttab (n : BitVec 3) (b : Bool) : (s.setUnitError n b).inttab = s.inttab := rfl
@[simp] theorem State.setUnitError_intret (n : BitVec 3) (b : Bool) : (s.setUnitError n b).intret = s.intret := rfl
@[simp] theorem State.setUnitError_io (n : BitVec 3) (b : Bool) : (s.setUnitError n b).io = s.io := rfl
@[simp] theorem State.setUnitError_copen (n : BitVec 3) (b : Bool) : (s.setUnitError n b).copen = s.copen := rfl
@[simp] theorem State.setUnitError_cops (n : BitVec 3) (b : Bool) : (s.setUnitError n b).cops = s.cops := rfl
@[simp] theorem State.setUnitError_status (n : BitVec 3) (b : Bool) : (s.setUnitError n b).status = s.status := rfl
@[simp] theorem State.setUnitError_pendingNmi (n : BitVec 3) (b : Bool) : (s.setUnitError n b).pendingNmi = s.pendingNmi := rfl
@[simp] theorem State.setUnitError_pendingIrq (n : BitVec 3) (b : Bool) : (s.setUnitError n b).pendingIrq = s.pendingIrq := rfl
@[simp] theorem State.setUnitError_pendingUnitError (n : BitVec 3) (b : Bool) : (s.setUnitError n b).pendingUnitError = s.pendingUnitError.set n.toNat b n.isLt := rfl
@[simp] theorem State.setUnitError_mem (n : BitVec 3) (b : Bool) : (s.setUnitError n b).mem = s.mem := rfl
@[simp] theorem State.setUnitError_cfg (n : BitVec 3) (b : Bool) : (s.setUnitError n b).cfg = s.cfg := rfl
@[simp] theorem State.setUnitError_storedTo (n : BitVec 3) (b : Bool) : (s.setUnitError n b).storedTo = s.storedTo := rfl
@[simp] theorem State.setUnitError_schedule (n : BitVec 3) (b : Bool) : (s.setUnitError n b).schedule = s.schedule := rfl
@[simp] theorem State.setUnitError_intOrder (n : BitVec 3) (b : Bool) : (s.setUnitError n b).intOrder = s.intOrder := rfl
@[simp] theorem State.setUnitError_portAnswers (n : BitVec 3) (b : Bool) : (s.setUnitError n b).portAnswers = s.portAnswers := rfl
@[simp] theorem State.setUnitError_ioTrace (n : BitVec 3) (b : Bool) : (s.setUnitError n b).ioTrace = s.ioTrace := rfl
@[simp] theorem State.setUnitError_fresh (n : BitVec 3) (b : Bool) : (s.setUnitError n b).fresh = s.fresh := rfl

/-! ### `State.storeBytes` -/

@[simp] theorem State.storeBytes_x (a : Word) (n : Nat) (v : Word) : (s.storeBytes a n v).x = s.x := rfl
@[simp] theorem State.storeBytes_pc (a : Word) (n : Nat) (v : Word) : (s.storeBytes a n v).pc = s.pc := rfl
@[simp] theorem State.storeBytes_flags (a : Word) (n : Nat) (v : Word) : (s.storeBytes a n v).flags = s.flags := rfl
@[simp] theorem State.storeBytes_sysctl (a : Word) (n : Nat) (v : Word) : (s.storeBytes a n v).sysctl = s.sysctl := rfl
@[simp] theorem State.storeBytes_inttab (a : Word) (n : Nat) (v : Word) : (s.storeBytes a n v).inttab = s.inttab := rfl
@[simp] theorem State.storeBytes_intret (a : Word) (n : Nat) (v : Word) : (s.storeBytes a n v).intret = s.intret := rfl
@[simp] theorem State.storeBytes_io (a : Word) (n : Nat) (v : Word) : (s.storeBytes a n v).io = s.io := rfl
@[simp] theorem State.storeBytes_copen (a : Word) (n : Nat) (v : Word) : (s.storeBytes a n v).copen = s.copen := rfl
@[simp] theorem State.storeBytes_cops (a : Word) (n : Nat) (v : Word) : (s.storeBytes a n v).cops = s.cops := rfl
@[simp] theorem State.storeBytes_status (a : Word) (n : Nat) (v : Word) : (s.storeBytes a n v).status = s.status := rfl
@[simp] theorem State.storeBytes_pendingNmi (a : Word) (n : Nat) (v : Word) : (s.storeBytes a n v).pendingNmi = s.pendingNmi := rfl
@[simp] theorem State.storeBytes_pendingIrq (a : Word) (n : Nat) (v : Word) : (s.storeBytes a n v).pendingIrq = s.pendingIrq := rfl
@[simp] theorem State.storeBytes_pendingUnitError (a : Word) (n : Nat) (v : Word) : (s.storeBytes a n v).pendingUnitError = s.pendingUnitError := rfl
@[simp] theorem State.storeBytes_mem (a : Word) (n : Nat) (v : Word) : (s.storeBytes a n v).mem = s.mem.writeLE a v n := rfl
@[simp] theorem State.storeBytes_cfg (a : Word) (n : Nat) (v : Word) : (s.storeBytes a n v).cfg = s.cfg := rfl
@[simp] theorem State.storeBytes_storedTo (a : Word) (n : Nat) (v : Word) : (s.storeBytes a n v).storedTo = insertAddrs s.storedTo a n := rfl
@[simp] theorem State.storeBytes_schedule (a : Word) (n : Nat) (v : Word) : (s.storeBytes a n v).schedule = s.schedule := rfl
@[simp] theorem State.storeBytes_intOrder (a : Word) (n : Nat) (v : Word) : (s.storeBytes a n v).intOrder = s.intOrder := rfl
@[simp] theorem State.storeBytes_portAnswers (a : Word) (n : Nat) (v : Word) : (s.storeBytes a n v).portAnswers = s.portAnswers := rfl
@[simp] theorem State.storeBytes_ioTrace (a : Word) (n : Nat) (v : Word) : (s.storeBytes a n v).ioTrace = s.ioTrace := rfl
@[simp] theorem State.storeBytes_fresh (a : Word) (n : Nat) (v : Word) : (s.storeBytes a n v).fresh = s.fresh := rfl

/-! ### `State.spend` -/

@[simp] theorem State.spend_x (n : Nat) : (s.spend n).x = s.x := rfl
@[simp] theorem State.spend_pc (n : Nat) : (s.spend n).pc = s.pc := rfl
@[simp] theorem State.spend_flags (n : Nat) : (s.spend n).flags = s.flags := rfl
@[simp] theorem State.spend_sysctl (n : Nat) : (s.spend n).sysctl = s.sysctl := rfl
@[simp] theorem State.spend_inttab (n : Nat) : (s.spend n).inttab = s.inttab := rfl
@[simp] theorem State.spend_intret (n : Nat) : (s.spend n).intret = s.intret := rfl
@[simp] theorem State.spend_io (n : Nat) : (s.spend n).io = s.io := rfl
@[simp] theorem State.spend_copen (n : Nat) : (s.spend n).copen = s.copen := rfl
@[simp] theorem State.spend_cops (n : Nat) : (s.spend n).cops = s.cops := rfl
@[simp] theorem State.spend_status (n : Nat) : (s.spend n).status = s.status := rfl
@[simp] theorem State.spend_pendingNmi (n : Nat) : (s.spend n).pendingNmi = s.pendingNmi := rfl
@[simp] theorem State.spend_pendingIrq (n : Nat) : (s.spend n).pendingIrq = s.pendingIrq := rfl
@[simp] theorem State.spend_pendingUnitError (n : Nat) : (s.spend n).pendingUnitError = s.pendingUnitError := rfl
@[simp] theorem State.spend_mem (n : Nat) : (s.spend n).mem = s.mem := rfl
@[simp] theorem State.spend_cfg (n : Nat) : (s.spend n).cfg = s.cfg := rfl
@[simp] theorem State.spend_storedTo (n : Nat) : (s.spend n).storedTo = s.storedTo := rfl
@[simp] theorem State.spend_schedule (n : Nat) : (s.spend n).schedule = s.schedule := rfl
@[simp] theorem State.spend_intOrder (n : Nat) : (s.spend n).intOrder = s.intOrder := rfl
@[simp] theorem State.spend_portAnswers (n : Nat) : (s.spend n).portAnswers = s.portAnswers := rfl
@[simp] theorem State.spend_ioTrace (n : Nat) : (s.spend n).ioTrace = s.ioTrace := rfl
@[simp] theorem State.spend_fresh (n : Nat) : (s.spend n).fresh = s.fresh + n := rfl

/-! ### `State.logPort` -/

@[simp] theorem State.logPort_x (e : IoEvent) : (s.logPort e).x = s.x := rfl
@[simp] theorem State.logPort_pc (e : IoEvent) : (s.logPort e).pc = s.pc := rfl
@[simp] theorem State.logPort_flags (e : IoEvent) : (s.logPort e).flags = s.flags := rfl
@[simp] theorem State.logPort_sysctl (e : IoEvent) : (s.logPort e).sysctl = s.sysctl := rfl
@[simp] theorem State.logPort_inttab (e : IoEvent) : (s.logPort e).inttab = s.inttab := rfl
@[simp] theorem State.logPort_intret (e : IoEvent) : (s.logPort e).intret = s.intret := rfl
@[simp] theorem State.logPort_io (e : IoEvent) : (s.logPort e).io = s.io := rfl
@[simp] theorem State.logPort_copen (e : IoEvent) : (s.logPort e).copen = s.copen := rfl
@[simp] theorem State.logPort_cops (e : IoEvent) : (s.logPort e).cops = s.cops := rfl
@[simp] theorem State.logPort_status (e : IoEvent) : (s.logPort e).status = s.status := rfl
@[simp] theorem State.logPort_pendingNmi (e : IoEvent) : (s.logPort e).pendingNmi = s.pendingNmi := rfl
@[simp] theorem State.logPort_pendingIrq (e : IoEvent) : (s.logPort e).pendingIrq = s.pendingIrq := rfl
@[simp] theorem State.logPort_pendingUnitError (e : IoEvent) : (s.logPort e).pendingUnitError = s.pendingUnitError := rfl
@[simp] theorem State.logPort_mem (e : IoEvent) : (s.logPort e).mem = s.mem := rfl
@[simp] theorem State.logPort_cfg (e : IoEvent) : (s.logPort e).cfg = s.cfg := rfl
@[simp] theorem State.logPort_storedTo (e : IoEvent) : (s.logPort e).storedTo = s.storedTo := rfl
@[simp] theorem State.logPort_schedule (e : IoEvent) : (s.logPort e).schedule = s.schedule := rfl
@[simp] theorem State.logPort_intOrder (e : IoEvent) : (s.logPort e).intOrder = s.intOrder := rfl
@[simp] theorem State.logPort_portAnswers (e : IoEvent) : (s.logPort e).portAnswers = s.portAnswers := rfl
@[simp] theorem State.logPort_ioTrace (e : IoEvent) : (s.logPort e).ioTrace = s.ioTrace ++ [e] := rfl
@[simp] theorem State.logPort_fresh (e : IoEvent) : (s.logPort e).fresh = s.fresh := rfl

/-! ### `State.setPortAnswers` -/

@[simp] theorem State.setPortAnswers_x (l : List Word) : (s.setPortAnswers l).x = s.x := rfl
@[simp] theorem State.setPortAnswers_pc (l : List Word) : (s.setPortAnswers l).pc = s.pc := rfl
@[simp] theorem State.setPortAnswers_flags (l : List Word) : (s.setPortAnswers l).flags = s.flags := rfl
@[simp] theorem State.setPortAnswers_sysctl (l : List Word) : (s.setPortAnswers l).sysctl = s.sysctl := rfl
@[simp] theorem State.setPortAnswers_inttab (l : List Word) : (s.setPortAnswers l).inttab = s.inttab := rfl
@[simp] theorem State.setPortAnswers_intret (l : List Word) : (s.setPortAnswers l).intret = s.intret := rfl
@[simp] theorem State.setPortAnswers_io (l : List Word) : (s.setPortAnswers l).io = s.io := rfl
@[simp] theorem State.setPortAnswers_copen (l : List Word) : (s.setPortAnswers l).copen = s.copen := rfl
@[simp] theorem State.setPortAnswers_cops (l : List Word) : (s.setPortAnswers l).cops = s.cops := rfl
@[simp] theorem State.setPortAnswers_status (l : List Word) : (s.setPortAnswers l).status = s.status := rfl
@[simp] theorem State.setPortAnswers_pendingNmi (l : List Word) : (s.setPortAnswers l).pendingNmi = s.pendingNmi := rfl
@[simp] theorem State.setPortAnswers_pendingIrq (l : List Word) : (s.setPortAnswers l).pendingIrq = s.pendingIrq := rfl
@[simp] theorem State.setPortAnswers_pendingUnitError (l : List Word) : (s.setPortAnswers l).pendingUnitError = s.pendingUnitError := rfl
@[simp] theorem State.setPortAnswers_mem (l : List Word) : (s.setPortAnswers l).mem = s.mem := rfl
@[simp] theorem State.setPortAnswers_cfg (l : List Word) : (s.setPortAnswers l).cfg = s.cfg := rfl
@[simp] theorem State.setPortAnswers_storedTo (l : List Word) : (s.setPortAnswers l).storedTo = s.storedTo := rfl
@[simp] theorem State.setPortAnswers_schedule (l : List Word) : (s.setPortAnswers l).schedule = s.schedule := rfl
@[simp] theorem State.setPortAnswers_intOrder (l : List Word) : (s.setPortAnswers l).intOrder = s.intOrder := rfl
@[simp] theorem State.setPortAnswers_portAnswers (l : List Word) : (s.setPortAnswers l).portAnswers = l := rfl
@[simp] theorem State.setPortAnswers_ioTrace (l : List Word) : (s.setPortAnswers l).ioTrace = s.ioTrace := rfl
@[simp] theorem State.setPortAnswers_fresh (l : List Word) : (s.setPortAnswers l).fresh = s.fresh := rfl

/-! ### `State.setFlags` -/

@[simp] theorem State.setFlags_x (f : BitVec 4) : (s.setFlags f).x = s.x := rfl
@[simp] theorem State.setFlags_pc (f : BitVec 4) : (s.setFlags f).pc = s.pc := rfl
@[simp] theorem State.setFlags_flags (f : BitVec 4) : (s.setFlags f).flags = f := rfl
@[simp] theorem State.setFlags_sysctl (f : BitVec 4) : (s.setFlags f).sysctl = s.sysctl := rfl
@[simp] theorem State.setFlags_inttab (f : BitVec 4) : (s.setFlags f).inttab = s.inttab := rfl
@[simp] theorem State.setFlags_intret (f : BitVec 4) : (s.setFlags f).intret = s.intret := rfl
@[simp] theorem State.setFlags_io (f : BitVec 4) : (s.setFlags f).io = s.io := rfl
@[simp] theorem State.setFlags_copen (f : BitVec 4) : (s.setFlags f).copen = s.copen := rfl
@[simp] theorem State.setFlags_cops (f : BitVec 4) : (s.setFlags f).cops = s.cops := rfl
@[simp] theorem State.setFlags_status (f : BitVec 4) : (s.setFlags f).status = s.status := rfl
@[simp] theorem State.setFlags_pendingNmi (f : BitVec 4) : (s.setFlags f).pendingNmi = s.pendingNmi := rfl
@[simp] theorem State.setFlags_pendingIrq (f : BitVec 4) : (s.setFlags f).pendingIrq = s.pendingIrq := rfl
@[simp] theorem State.setFlags_pendingUnitError (f : BitVec 4) : (s.setFlags f).pendingUnitError = s.pendingUnitError := rfl
@[simp] theorem State.setFlags_mem (f : BitVec 4) : (s.setFlags f).mem = s.mem := rfl
@[simp] theorem State.setFlags_cfg (f : BitVec 4) : (s.setFlags f).cfg = s.cfg := rfl
@[simp] theorem State.setFlags_storedTo (f : BitVec 4) : (s.setFlags f).storedTo = s.storedTo := rfl
@[simp] theorem State.setFlags_schedule (f : BitVec 4) : (s.setFlags f).schedule = s.schedule := rfl
@[simp] theorem State.setFlags_intOrder (f : BitVec 4) : (s.setFlags f).intOrder = s.intOrder := rfl
@[simp] theorem State.setFlags_portAnswers (f : BitVec 4) : (s.setFlags f).portAnswers = s.portAnswers := rfl
@[simp] theorem State.setFlags_ioTrace (f : BitVec 4) : (s.setFlags f).ioTrace = s.ioTrace := rfl
@[simp] theorem State.setFlags_fresh (f : BitVec 4) : (s.setFlags f).fresh = s.fresh := rfl

/-! ### `State.setStatus` -/

@[simp] theorem State.setStatus_x (r : RunStatus) : (s.setStatus r).x = s.x := rfl
@[simp] theorem State.setStatus_pc (r : RunStatus) : (s.setStatus r).pc = s.pc := rfl
@[simp] theorem State.setStatus_flags (r : RunStatus) : (s.setStatus r).flags = s.flags := rfl
@[simp] theorem State.setStatus_sysctl (r : RunStatus) : (s.setStatus r).sysctl = s.sysctl := rfl
@[simp] theorem State.setStatus_inttab (r : RunStatus) : (s.setStatus r).inttab = s.inttab := rfl
@[simp] theorem State.setStatus_intret (r : RunStatus) : (s.setStatus r).intret = s.intret := rfl
@[simp] theorem State.setStatus_io (r : RunStatus) : (s.setStatus r).io = s.io := rfl
@[simp] theorem State.setStatus_copen (r : RunStatus) : (s.setStatus r).copen = s.copen := rfl
@[simp] theorem State.setStatus_cops (r : RunStatus) : (s.setStatus r).cops = s.cops := rfl
@[simp] theorem State.setStatus_status (r : RunStatus) : (s.setStatus r).status = r := rfl
@[simp] theorem State.setStatus_pendingNmi (r : RunStatus) : (s.setStatus r).pendingNmi = s.pendingNmi := rfl
@[simp] theorem State.setStatus_pendingIrq (r : RunStatus) : (s.setStatus r).pendingIrq = s.pendingIrq := rfl
@[simp] theorem State.setStatus_pendingUnitError (r : RunStatus) : (s.setStatus r).pendingUnitError = s.pendingUnitError := rfl
@[simp] theorem State.setStatus_mem (r : RunStatus) : (s.setStatus r).mem = s.mem := rfl
@[simp] theorem State.setStatus_cfg (r : RunStatus) : (s.setStatus r).cfg = s.cfg := rfl
@[simp] theorem State.setStatus_storedTo (r : RunStatus) : (s.setStatus r).storedTo = s.storedTo := rfl
@[simp] theorem State.setStatus_schedule (r : RunStatus) : (s.setStatus r).schedule = s.schedule := rfl
@[simp] theorem State.setStatus_intOrder (r : RunStatus) : (s.setStatus r).intOrder = s.intOrder := rfl
@[simp] theorem State.setStatus_portAnswers (r : RunStatus) : (s.setStatus r).portAnswers = s.portAnswers := rfl
@[simp] theorem State.setStatus_ioTrace (r : RunStatus) : (s.setStatus r).ioTrace = s.ioTrace := rfl
@[simp] theorem State.setStatus_fresh (r : RunStatus) : (s.setStatus r).fresh = s.fresh := rfl

/-! ### `State.setCopen` -/

@[simp] theorem State.setCopen_x (v : Word) : (s.setCopen v).x = s.x := rfl
@[simp] theorem State.setCopen_pc (v : Word) : (s.setCopen v).pc = s.pc := rfl
@[simp] theorem State.setCopen_flags (v : Word) : (s.setCopen v).flags = s.flags := rfl
@[simp] theorem State.setCopen_sysctl (v : Word) : (s.setCopen v).sysctl = s.sysctl := rfl
@[simp] theorem State.setCopen_inttab (v : Word) : (s.setCopen v).inttab = s.inttab := rfl
@[simp] theorem State.setCopen_intret (v : Word) : (s.setCopen v).intret = s.intret := rfl
@[simp] theorem State.setCopen_io (v : Word) : (s.setCopen v).io = s.io := rfl
@[simp] theorem State.setCopen_copen (v : Word) : (s.setCopen v).copen = v := rfl
@[simp] theorem State.setCopen_cops (v : Word) : (s.setCopen v).cops = s.cops := rfl
@[simp] theorem State.setCopen_status (v : Word) : (s.setCopen v).status = s.status := rfl
@[simp] theorem State.setCopen_pendingNmi (v : Word) : (s.setCopen v).pendingNmi = s.pendingNmi := rfl
@[simp] theorem State.setCopen_pendingIrq (v : Word) : (s.setCopen v).pendingIrq = s.pendingIrq := rfl
@[simp] theorem State.setCopen_pendingUnitError (v : Word) : (s.setCopen v).pendingUnitError = s.pendingUnitError := rfl
@[simp] theorem State.setCopen_mem (v : Word) : (s.setCopen v).mem = s.mem := rfl
@[simp] theorem State.setCopen_cfg (v : Word) : (s.setCopen v).cfg = s.cfg := rfl
@[simp] theorem State.setCopen_storedTo (v : Word) : (s.setCopen v).storedTo = s.storedTo := rfl
@[simp] theorem State.setCopen_schedule (v : Word) : (s.setCopen v).schedule = s.schedule := rfl
@[simp] theorem State.setCopen_intOrder (v : Word) : (s.setCopen v).intOrder = s.intOrder := rfl
@[simp] theorem State.setCopen_portAnswers (v : Word) : (s.setCopen v).portAnswers = s.portAnswers := rfl
@[simp] theorem State.setCopen_ioTrace (v : Word) : (s.setCopen v).ioTrace = s.ioTrace := rfl
@[simp] theorem State.setCopen_fresh (v : Word) : (s.setCopen v).fresh = s.fresh := rfl

/-! ### `State.saveException` -/

@[simp] theorem State.saveException_x : s.saveException.x = s.x := rfl
@[simp] theorem State.saveException_pc : s.saveException.pc = s.pc := rfl
@[simp] theorem State.saveException_flags : s.saveException.flags = s.flags := rfl
@[simp] theorem State.saveException_sysctl : s.saveException.sysctl = s.sysctl ||| 0x80000000 := rfl
@[simp] theorem State.saveException_inttab : s.saveException.inttab = s.inttab := rfl
@[simp] theorem State.saveException_intret : s.saveException.intret = s.pc := rfl
@[simp] theorem State.saveException_io : s.saveException.io = s.io := rfl
@[simp] theorem State.saveException_copen : s.saveException.copen = s.copen := rfl
@[simp] theorem State.saveException_cops : s.saveException.cops = s.cops := rfl
@[simp] theorem State.saveException_status : s.saveException.status = s.status := rfl
@[simp] theorem State.saveException_pendingNmi : s.saveException.pendingNmi = s.pendingNmi := rfl
@[simp] theorem State.saveException_pendingIrq : s.saveException.pendingIrq = s.pendingIrq := rfl
@[simp] theorem State.saveException_pendingUnitError : s.saveException.pendingUnitError = s.pendingUnitError := rfl
@[simp] theorem State.saveException_mem : s.saveException.mem = s.mem := rfl
@[simp] theorem State.saveException_cfg : s.saveException.cfg = s.cfg := rfl
@[simp] theorem State.saveException_storedTo : s.saveException.storedTo = s.storedTo := rfl
@[simp] theorem State.saveException_schedule : s.saveException.schedule = s.schedule := rfl
@[simp] theorem State.saveException_intOrder : s.saveException.intOrder = s.intOrder := rfl
@[simp] theorem State.saveException_portAnswers : s.saveException.portAnswers = s.portAnswers := rfl
@[simp] theorem State.saveException_ioTrace : s.saveException.ioTrace = s.ioTrace := rfl
@[simp] theorem State.saveException_fresh : s.saveException.fresh = s.fresh := rfl

/-! ### `State.saveReturn` -/

@[simp] theorem State.saveReturn_x : s.saveReturn.x = s.x := rfl
@[simp] theorem State.saveReturn_pc : s.saveReturn.pc = s.pc := rfl
@[simp] theorem State.saveReturn_flags : s.saveReturn.flags = s.flags := rfl
@[simp] theorem State.saveReturn_sysctl : s.saveReturn.sysctl = s.sysctl := rfl
@[simp] theorem State.saveReturn_inttab : s.saveReturn.inttab = s.inttab := rfl
@[simp] theorem State.saveReturn_intret : s.saveReturn.intret = s.pc := rfl
@[simp] theorem State.saveReturn_io : s.saveReturn.io = s.io := rfl
@[simp] theorem State.saveReturn_copen : s.saveReturn.copen = s.copen := rfl
@[simp] theorem State.saveReturn_cops : s.saveReturn.cops = s.cops := rfl
@[simp] theorem State.saveReturn_status : s.saveReturn.status = s.status := rfl
@[simp] theorem State.saveReturn_pendingNmi : s.saveReturn.pendingNmi = s.pendingNmi := rfl
@[simp] theorem State.saveReturn_pendingIrq : s.saveReturn.pendingIrq = s.pendingIrq := rfl
@[simp] theorem State.saveReturn_pendingUnitError : s.saveReturn.pendingUnitError = s.pendingUnitError := rfl
@[simp] theorem State.saveReturn_mem : s.saveReturn.mem = s.mem := rfl
@[simp] theorem State.saveReturn_cfg : s.saveReturn.cfg = s.cfg := rfl
@[simp] theorem State.saveReturn_storedTo : s.saveReturn.storedTo = s.storedTo := rfl
@[simp] theorem State.saveReturn_schedule : s.saveReturn.schedule = s.schedule := rfl
@[simp] theorem State.saveReturn_intOrder : s.saveReturn.intOrder = s.intOrder := rfl
@[simp] theorem State.saveReturn_portAnswers : s.saveReturn.portAnswers = s.portAnswers := rfl
@[simp] theorem State.saveReturn_ioTrace : s.saveReturn.ioTrace = s.ioTrace := rfl
@[simp] theorem State.saveReturn_fresh : s.saveReturn.fresh = s.fresh := rfl

/-! ### Reading back what an update wrote -/

/-- r0 reads as zero, and writes are ignored (10_state.md R22). -/
@[simp] theorem State.reg_zero : s.reg 0#5 = 0#32 := rfl

/-- A general register after a write. -/
theorem State.reg_setReg (i j : BitVec 5) (v : Word) :
    (s.setReg i v).reg j = if j = i ∧ i ≠ 0 then v else s.reg j := by
  unfold State.setReg State.reg
  by_cases hi : i = 0
  · subst hi; simp
  · by_cases hj : j = 0
    · subst hj; simp only [if_true, hi, if_false]; rw [if_neg]; rintro ⟨h, -⟩; exact hi h.symm
    · simp only [hi, hj, if_false, ne_eq, not_false_iff, and_true, Vector.getElem_set]
      have h1 : 1 ≤ i.toNat := Nat.one_le_iff_ne_zero.2 fun h => hi (BitVec.eq_of_toNat_eq (by simpa using h))
      have h2 : 1 ≤ j.toNat := Nat.one_le_iff_ne_zero.2 fun h => hj (BitVec.eq_of_toNat_eq (by simpa using h))
      by_cases h : j = i
      · subst h; simp
      · have : i.toNat - 1 ≠ j.toNat - 1 := fun e => h (BitVec.eq_of_toNat_eq (by omega))
        simp [h, this]

/-- General registers depend on the register file only. -/
theorem State.reg_congr {s t : State} (h : t.x = s.x) (j : BitVec 5) : t.reg j = s.reg j := by
  unfold State.reg; split <;> simp [h]

/-- A byte of memory depends on memory only. -/
theorem State.byteAt_congr {s t : State} (h : t.mem = s.mem) (a : Word) : t.byteAt a = s.byteAt a := by
  unfold State.byteAt; rw [h]

/-- A coprocessor slot after a write. -/
theorem State.cop_setCop (n m : BitVec 3) (c : Cop) : (s.setCop n c).cop m = if m = n then c else s.cop m := by
  unfold State.cop
  simp only [State.setCop_cops, Vector.getElem_set]
  by_cases h : m = n
  · subst h; simp
  · have : n.toNat ≠ m.toNat := fun e => h (BitVec.eq_of_toNat_eq e.symm)
    simp [h, this]

/-- A transfer register after a write. -/
theorem State.ioReg_setIoReg (i j : BitVec 5) (v : Word) :
    (s.setIoReg i v).ioReg j = if j = i then v else s.ioReg j := by
  unfold State.ioReg
  simp only [State.setIoReg_io, Vector.getElem_set]
  by_cases h : j = i
  · subst h; simp
  · have : i.toNat ≠ j.toNat := fun e => h (BitVec.eq_of_toNat_eq e.symm)
    simp [h, this]

@[simp] theorem State.reg_advance (j : BitVec 5) : s.advance.reg j = s.reg j :=
  State.reg_congr (by simp) j
@[simp] theorem State.reg_goto (a : Word) (j : BitVec 5) : (s.goto a).reg j = s.reg j :=
  State.reg_congr (by simp) j
@[simp] theorem State.reg_setFlagsUnless (c : Bool) (f : BitVec 4) (j : BitVec 5) : (s.setFlagsUnless c f).reg j = s.reg j :=
  State.reg_congr (by simp) j
@[simp] theorem State.reg_setIoReg (i : BitVec 5) (v : Word) (j : BitVec 5) : (s.setIoReg i v).reg j = s.reg j :=
  State.reg_congr (by simp) j
@[simp] theorem State.reg_setCop (n : BitVec 3) (c : Cop) (j : BitVec 5) : (s.setCop n c).reg j = s.reg j :=
  State.reg_congr (by simp) j
@[simp] theorem State.reg_setUnitError (n : BitVec 3) (b : Bool) (j : BitVec 5) : (s.setUnitError n b).reg j = s.reg j :=
  State.reg_congr (by simp) j
@[simp] theorem State.reg_storeBytes (a : Word) (n : Nat) (v : Word) (j : BitVec 5) : (s.storeBytes a n v).reg j = s.reg j :=
  State.reg_congr (by simp) j
@[simp] theorem State.reg_spend (n : Nat) (j : BitVec 5) : (s.spend n).reg j = s.reg j :=
  State.reg_congr (by simp) j
@[simp] theorem State.reg_logPort (e : IoEvent) (j : BitVec 5) : (s.logPort e).reg j = s.reg j :=
  State.reg_congr (by simp) j
@[simp] theorem State.reg_setPortAnswers (l : List Word) (j : BitVec 5) : (s.setPortAnswers l).reg j = s.reg j :=
  State.reg_congr (by simp) j
@[simp] theorem State.reg_setFlags (f : BitVec 4) (j : BitVec 5) : (s.setFlags f).reg j = s.reg j :=
  State.reg_congr (by simp) j
@[simp] theorem State.reg_setStatus (r : RunStatus) (j : BitVec 5) : (s.setStatus r).reg j = s.reg j :=
  State.reg_congr (by simp) j
@[simp] theorem State.reg_setCopen (v : Word) (j : BitVec 5) : (s.setCopen v).reg j = s.reg j :=
  State.reg_congr (by simp) j
@[simp] theorem State.reg_saveException (j : BitVec 5) : s.saveException.reg j = s.reg j :=
  State.reg_congr (by simp) j
@[simp] theorem State.reg_saveReturn (j : BitVec 5) : s.saveReturn.reg j = s.reg j :=
  State.reg_congr (by simp) j
@[simp] theorem State.byteAt_setReg (i : BitVec 5) (v : Word) (q : Word) : (s.setReg i v).byteAt q = s.byteAt q :=
  State.byteAt_congr (by simp) q
@[simp] theorem State.byteAt_advance (q : Word) : s.advance.byteAt q = s.byteAt q :=
  State.byteAt_congr (by simp) q
@[simp] theorem State.byteAt_goto (a : Word) (q : Word) : (s.goto a).byteAt q = s.byteAt q :=
  State.byteAt_congr (by simp) q
@[simp] theorem State.byteAt_setFlagsUnless (c : Bool) (f : BitVec 4) (q : Word) : (s.setFlagsUnless c f).byteAt q = s.byteAt q :=
  State.byteAt_congr (by simp) q
@[simp] theorem State.byteAt_setIoReg (i : BitVec 5) (v : Word) (q : Word) : (s.setIoReg i v).byteAt q = s.byteAt q :=
  State.byteAt_congr (by simp) q
@[simp] theorem State.byteAt_setCop (n : BitVec 3) (c : Cop) (q : Word) : (s.setCop n c).byteAt q = s.byteAt q :=
  State.byteAt_congr (by simp) q
@[simp] theorem State.byteAt_setUnitError (n : BitVec 3) (b : Bool) (q : Word) : (s.setUnitError n b).byteAt q = s.byteAt q :=
  State.byteAt_congr (by simp) q
@[simp] theorem State.byteAt_spend (n : Nat) (q : Word) : (s.spend n).byteAt q = s.byteAt q :=
  State.byteAt_congr (by simp) q
@[simp] theorem State.byteAt_logPort (e : IoEvent) (q : Word) : (s.logPort e).byteAt q = s.byteAt q :=
  State.byteAt_congr (by simp) q
@[simp] theorem State.byteAt_setPortAnswers (l : List Word) (q : Word) : (s.setPortAnswers l).byteAt q = s.byteAt q :=
  State.byteAt_congr (by simp) q
@[simp] theorem State.byteAt_setFlags (f : BitVec 4) (q : Word) : (s.setFlags f).byteAt q = s.byteAt q :=
  State.byteAt_congr (by simp) q
@[simp] theorem State.byteAt_setStatus (r : RunStatus) (q : Word) : (s.setStatus r).byteAt q = s.byteAt q :=
  State.byteAt_congr (by simp) q
@[simp] theorem State.byteAt_setCopen (v : Word) (q : Word) : (s.setCopen v).byteAt q = s.byteAt q :=
  State.byteAt_congr (by simp) q
@[simp] theorem State.byteAt_saveException (q : Word) : s.saveException.byteAt q = s.byteAt q :=
  State.byteAt_congr (by simp) q
@[simp] theorem State.byteAt_saveReturn (q : Word) : s.saveReturn.byteAt q = s.byteAt q :=
  State.byteAt_congr (by simp) q
@[simp] theorem State.cop_setReg (i : BitVec 5) (v : Word) (m : BitVec 3) : (s.setReg i v).cop m = s.cop m := by unfold State.cop; simp
@[simp] theorem State.ioReg_setReg (i : BitVec 5) (v : Word) (j : BitVec 5) : (s.setReg i v).ioReg j = s.ioReg j := by unfold State.ioReg; simp
@[simp] theorem State.enabled_setReg (i : BitVec 5) (v : Word) (m : BitVec 3) : (s.setReg i v).enabled m = s.enabled m := by
  unfold State.enabled; simp
@[simp] theorem State.kind_setReg (i : BitVec 5) (v : Word) (m : BitVec 3) : (s.setReg i v).kind m = s.kind m := by unfold State.kind; simp
@[simp] theorem State.cop_advance (m : BitVec 3) : s.advance.cop m = s.cop m := by unfold State.cop; simp
@[simp] theorem State.ioReg_advance (j : BitVec 5) : s.advance.ioReg j = s.ioReg j := by unfold State.ioReg; simp
@[simp] theorem State.enabled_advance (m : BitVec 3) : s.advance.enabled m = s.enabled m := by
  unfold State.enabled; simp
@[simp] theorem State.kind_advance (m : BitVec 3) : s.advance.kind m = s.kind m := by unfold State.kind; simp
@[simp] theorem State.cop_goto (a : Word) (m : BitVec 3) : (s.goto a).cop m = s.cop m := by unfold State.cop; simp
@[simp] theorem State.ioReg_goto (a : Word) (j : BitVec 5) : (s.goto a).ioReg j = s.ioReg j := by unfold State.ioReg; simp
@[simp] theorem State.enabled_goto (a : Word) (m : BitVec 3) : (s.goto a).enabled m = s.enabled m := by
  unfold State.enabled; simp
@[simp] theorem State.kind_goto (a : Word) (m : BitVec 3) : (s.goto a).kind m = s.kind m := by unfold State.kind; simp
@[simp] theorem State.cop_setFlagsUnless (c : Bool) (f : BitVec 4) (m : BitVec 3) : (s.setFlagsUnless c f).cop m = s.cop m := by unfold State.cop; simp
@[simp] theorem State.ioReg_setFlagsUnless (c : Bool) (f : BitVec 4) (j : BitVec 5) : (s.setFlagsUnless c f).ioReg j = s.ioReg j := by unfold State.ioReg; simp
@[simp] theorem State.enabled_setFlagsUnless (c : Bool) (f : BitVec 4) (m : BitVec 3) : (s.setFlagsUnless c f).enabled m = s.enabled m := by
  unfold State.enabled; simp
@[simp] theorem State.kind_setFlagsUnless (c : Bool) (f : BitVec 4) (m : BitVec 3) : (s.setFlagsUnless c f).kind m = s.kind m := by unfold State.kind; simp
@[simp] theorem State.cop_setIoReg (i : BitVec 5) (v : Word) (m : BitVec 3) : (s.setIoReg i v).cop m = s.cop m := by unfold State.cop; simp
@[simp] theorem State.enabled_setIoReg (i : BitVec 5) (v : Word) (m : BitVec 3) : (s.setIoReg i v).enabled m = s.enabled m := by
  unfold State.enabled; simp
@[simp] theorem State.kind_setIoReg (i : BitVec 5) (v : Word) (m : BitVec 3) : (s.setIoReg i v).kind m = s.kind m := by unfold State.kind; simp
@[simp] theorem State.ioReg_setCop (n : BitVec 3) (c : Cop) (j : BitVec 5) : (s.setCop n c).ioReg j = s.ioReg j := by unfold State.ioReg; simp
@[simp] theorem State.enabled_setCop (n : BitVec 3) (c : Cop) (m : BitVec 3) : (s.setCop n c).enabled m = s.enabled m := by
  unfold State.enabled; simp
@[simp] theorem State.kind_setCop (n : BitVec 3) (c : Cop) (m : BitVec 3) : (s.setCop n c).kind m = s.kind m := by unfold State.kind; simp
@[simp] theorem State.cop_setUnitError (n : BitVec 3) (b : Bool) (m : BitVec 3) : (s.setUnitError n b).cop m = s.cop m := by unfold State.cop; simp
@[simp] theorem State.ioReg_setUnitError (n : BitVec 3) (b : Bool) (j : BitVec 5) : (s.setUnitError n b).ioReg j = s.ioReg j := by unfold State.ioReg; simp
@[simp] theorem State.enabled_setUnitError (n : BitVec 3) (b : Bool) (m : BitVec 3) : (s.setUnitError n b).enabled m = s.enabled m := by
  unfold State.enabled; simp
@[simp] theorem State.kind_setUnitError (n : BitVec 3) (b : Bool) (m : BitVec 3) : (s.setUnitError n b).kind m = s.kind m := by unfold State.kind; simp
@[simp] theorem State.cop_storeBytes (a : Word) (n : Nat) (v : Word) (m : BitVec 3) : (s.storeBytes a n v).cop m = s.cop m := by unfold State.cop; simp
@[simp] theorem State.ioReg_storeBytes (a : Word) (n : Nat) (v : Word) (j : BitVec 5) : (s.storeBytes a n v).ioReg j = s.ioReg j := by unfold State.ioReg; simp
@[simp] theorem State.enabled_storeBytes (a : Word) (n : Nat) (v : Word) (m : BitVec 3) : (s.storeBytes a n v).enabled m = s.enabled m := by
  unfold State.enabled; simp
@[simp] theorem State.kind_storeBytes (a : Word) (n : Nat) (v : Word) (m : BitVec 3) : (s.storeBytes a n v).kind m = s.kind m := by unfold State.kind; simp
@[simp] theorem State.cop_spend (n : Nat) (m : BitVec 3) : (s.spend n).cop m = s.cop m := by unfold State.cop; simp
@[simp] theorem State.ioReg_spend (n : Nat) (j : BitVec 5) : (s.spend n).ioReg j = s.ioReg j := by unfold State.ioReg; simp
@[simp] theorem State.enabled_spend (n : Nat) (m : BitVec 3) : (s.spend n).enabled m = s.enabled m := by
  unfold State.enabled; simp
@[simp] theorem State.kind_spend (n : Nat) (m : BitVec 3) : (s.spend n).kind m = s.kind m := by unfold State.kind; simp
@[simp] theorem State.cop_logPort (e : IoEvent) (m : BitVec 3) : (s.logPort e).cop m = s.cop m := by unfold State.cop; simp
@[simp] theorem State.ioReg_logPort (e : IoEvent) (j : BitVec 5) : (s.logPort e).ioReg j = s.ioReg j := by unfold State.ioReg; simp
@[simp] theorem State.enabled_logPort (e : IoEvent) (m : BitVec 3) : (s.logPort e).enabled m = s.enabled m := by
  unfold State.enabled; simp
@[simp] theorem State.kind_logPort (e : IoEvent) (m : BitVec 3) : (s.logPort e).kind m = s.kind m := by unfold State.kind; simp
@[simp] theorem State.cop_setPortAnswers (l : List Word) (m : BitVec 3) : (s.setPortAnswers l).cop m = s.cop m := by unfold State.cop; simp
@[simp] theorem State.ioReg_setPortAnswers (l : List Word) (j : BitVec 5) : (s.setPortAnswers l).ioReg j = s.ioReg j := by unfold State.ioReg; simp
@[simp] theorem State.enabled_setPortAnswers (l : List Word) (m : BitVec 3) : (s.setPortAnswers l).enabled m = s.enabled m := by
  unfold State.enabled; simp
@[simp] theorem State.kind_setPortAnswers (l : List Word) (m : BitVec 3) : (s.setPortAnswers l).kind m = s.kind m := by unfold State.kind; simp
@[simp] theorem State.cop_setFlags (f : BitVec 4) (m : BitVec 3) : (s.setFlags f).cop m = s.cop m := by unfold State.cop; simp
@[simp] theorem State.ioReg_setFlags (f : BitVec 4) (j : BitVec 5) : (s.setFlags f).ioReg j = s.ioReg j := by unfold State.ioReg; simp
@[simp] theorem State.enabled_setFlags (f : BitVec 4) (m : BitVec 3) : (s.setFlags f).enabled m = s.enabled m := by
  unfold State.enabled; simp
@[simp] theorem State.kind_setFlags (f : BitVec 4) (m : BitVec 3) : (s.setFlags f).kind m = s.kind m := by unfold State.kind; simp
@[simp] theorem State.cop_setStatus (r : RunStatus) (m : BitVec 3) : (s.setStatus r).cop m = s.cop m := by unfold State.cop; simp
@[simp] theorem State.ioReg_setStatus (r : RunStatus) (j : BitVec 5) : (s.setStatus r).ioReg j = s.ioReg j := by unfold State.ioReg; simp
@[simp] theorem State.enabled_setStatus (r : RunStatus) (m : BitVec 3) : (s.setStatus r).enabled m = s.enabled m := by
  unfold State.enabled; simp
@[simp] theorem State.kind_setStatus (r : RunStatus) (m : BitVec 3) : (s.setStatus r).kind m = s.kind m := by unfold State.kind; simp
@[simp] theorem State.cop_setCopen (v : Word) (m : BitVec 3) : (s.setCopen v).cop m = s.cop m := by unfold State.cop; simp
@[simp] theorem State.ioReg_setCopen (v : Word) (j : BitVec 5) : (s.setCopen v).ioReg j = s.ioReg j := by unfold State.ioReg; simp
@[simp] theorem State.cop_saveException (m : BitVec 3) : s.saveException.cop m = s.cop m := by unfold State.cop; simp
@[simp] theorem State.ioReg_saveException (j : BitVec 5) : s.saveException.ioReg j = s.ioReg j := by unfold State.ioReg; simp
@[simp] theorem State.enabled_saveException (m : BitVec 3) : s.saveException.enabled m = s.enabled m := by
  unfold State.enabled; simp
@[simp] theorem State.kind_saveException (m : BitVec 3) : s.saveException.kind m = s.kind m := by unfold State.kind; simp
@[simp] theorem State.cop_saveReturn (m : BitVec 3) : s.saveReturn.cop m = s.cop m := by unfold State.cop; simp
@[simp] theorem State.ioReg_saveReturn (j : BitVec 5) : s.saveReturn.ioReg j = s.ioReg j := by unfold State.ioReg; simp
@[simp] theorem State.enabled_saveReturn (m : BitVec 3) : s.saveReturn.enabled m = s.enabled m := by
  unfold State.enabled; simp
@[simp] theorem State.kind_saveReturn (m : BitVec 3) : s.saveReturn.kind m = s.kind m := by unfold State.kind; simp

end Sys2Proof.Machine
end

