-- ==== Sys2Proof/Laws/Boundary.lean ====
section
/-! SUPPORT. What happens between instructions, and the fetch. -/

namespace Sys2Proof.Machine

/-- A sequence answers a next state only through one of its first part. -/
theorem andThen_next {o : Out} {f : State → Out} (h : andThen o f = .next t) : ∃ u, o = .next u ∧ f u = .next t := by
  unfold andThen at h
  split at h
  · exact ⟨_, rfl, h⟩
  · cases h
  · cases h

/-! ### Fetch -/

/-- One byte, zero-extended (R74). -/
theorem Memory.readLE_one (m : Memory) (a : Word) : m.readLE a 1 = (m.read a.toNat).setWidth 32 := by
  simp [Memory.readLE]

/-- Two bytes, the lower address in the low half (R71, R74). -/
theorem Memory.readLE_two (m : Memory) (a : Word) : m.readLE a 2 = (m.read (a+1).toNat ++ m.read a.toNat).setWidth 32 := by
  have e : a + 1 + 1 = a + 2 := by rw [BitVec.add_assoc]; rfl
  simp only [Memory.readLE]
  generalize m.read a.toNat = x
  generalize m.read (a+1).toNat = y
  apply BitVec.eq_of_getLsbD_eq
  intro i hi
  simp only [BitVec.getLsbD_or, BitVec.getLsbD_shiftLeft, BitVec.getLsbD_setWidth,
    BitVec.getLsbD_append]
  have g : ∀ (b : BitVec 8) k, ¬ k < 8 → b.getLsbD k = false := fun b k h => BitVec.getLsbD_of_ge b k (by omega)
  by_cases h0 : i < 8
  · simp [h0, hi]
  · simp [h0, hi, g _ _ h0, show i - 8 < 32 by omega]

/-- Four bytes, lowest address in the lowest byte (R71, R74). -/
theorem Memory.readLE_four (m : Memory) (a : Word) : m.readLE a 4 =
    m.read (a + 3).toNat ++ m.read (a + 2).toNat ++ m.read (a + 1).toNat ++ m.read a.toNat := by
  simp only [Memory.readLE]
  have e2 : a + 1 + 1 = a + 2 := by rw [BitVec.add_assoc]; rfl
  have e3 : a + 1 + 1 + 1 = a + 3 := by rw [BitVec.add_assoc, BitVec.add_assoc]; rfl
  rw [e3, e2]
  generalize m.read a.toNat = b0
  generalize m.read (a + 1).toNat = b1
  generalize m.read (a + 2).toNat = b2
  generalize m.read (a + 3).toNat = b3
  apply BitVec.eq_of_getLsbD_eq
  intro i hi
  simp only [BitVec.getLsbD_or, BitVec.getLsbD_shiftLeft, BitVec.getLsbD_setWidth, BitVec.getLsbD_append]
  have g : ∀ (b : BitVec 8) k, ¬ k < 8 → b.getLsbD k = false := fun b k h => BitVec.getLsbD_of_ge b k (by omega)
  by_cases h0 : i < 8
  · simp [h0, hi]
  · by_cases h1 : i < 16
    · have : i - 8 < 8 := by omega
      simp [h0, hi, this, g _ _ h0, show i - 8 < 32 by omega]
    · by_cases h2 : i < 24
      · have a1 : ¬ i - 8 < 8 := by omega
        have a2 : i - 8 - 8 < 8 := by omega
        simp [h0, hi, a1, a2, g _ _ h0, g _ _ a1, show i - 8 < 32 by omega, show i - 8 - 8 < 32 by omega]
      · have a1 : ¬ i - 8 < 8 := by omega
        have a2 : ¬ i - 8 - 8 < 8 := by omega
        simp [h0, hi, a1, a2, g _ _ h0, g _ _ a1, g _ _ a2, show i - 8 < 32 by omega, show i - 8 - 8 < 32 by omega, show i - 8 - 8 - 8 < 32 by omega]

/-- A fetch that exists gives the word whose bytes lie at pc (R73). -/
theorem State.fetch_word (s : State) (h1 : Config.accessible s.cfg .fetch s.pc 4 = true) (h2 : s.cfg.ifetchCoherent = true) :
    s.fetch = .word (s.byteAt (s.pc + 3) ++ s.byteAt (s.pc + 2) ++ s.byteAt (s.pc + 1) ++ s.byteAt s.pc) := by
  unfold State.fetch; rw [h1, h2, Memory.readLE_four]; rfl

/-- The next step of a running CPU that nothing disturbs is an instruction. -/
theorem step_undisturbed {s : State} (h1 : s.status = .running) (h2 : s.Undisturbed) : step s = runInstruction s := by
  unfold step cycle arrivals
  rw [h2.1]
  show atBoundary s = _
  unfold atBoundary
  rw [h1, h2.2]

/-! ### Interrupts -/

/-- A vector is deliverable exactly when its source is pending with its gate open (R354). -/
theorem State.deliverable_iff (s : State) (v : Nat) : s.deliverable v = true ↔ s.GateOpen v := by
  unfold State.deliverable State.GateOpen
  split
  · rename_i h; subst h
    constructor
    · intro h; exact .inl ⟨rfl, h⟩
    · rintro (⟨_, h⟩ | ⟨u, h, _⟩ | ⟨u, h, _⟩)
      · exact h
      · omega
      · omega
  · rename_i h7
    split
    · rename_i h
      simp only [Bool.and_eq_true, Bool.not_eq_true']
      constructor
      · rintro ⟨ha, hb⟩
        exact .inr (.inl ⟨⟨v - 8, by omega⟩, by simp; omega, ha, hb⟩)
      · rintro (⟨h, _⟩ | ⟨u, h, ha, hb⟩ | ⟨u, h, _⟩)
        · omega
        · subst h; simpa using ⟨ha, hb⟩
        · omega
    · split
      · rename_i h
        simp only [Bool.and_eq_true, Bool.not_eq_true']
        constructor
        · rintro ⟨⟨ha, hb⟩, hc⟩
          exact .inr (.inr ⟨⟨v - 32, by omega⟩, by simp; omega, ha, hb, hc⟩)
        · rintro (⟨h, _⟩ | ⟨u, h, ha, hb⟩ | ⟨u, h, ha, hb, hc⟩)
          · omega
          · omega
          · subst h; simpa using ⟨⟨ha, hb⟩, hc⟩
      · rename_i h8 h32
        simp only [Bool.false_eq_true, false_iff]
        rintro (⟨h, _⟩ | ⟨u, h, ha, hb⟩ | ⟨u, h, ha, hb, hc⟩)
        · omega
        · omega
        · omega

/-- The recommended order names every source. -/
theorem recommendedOrder_mem {s : State} {v : Nat} (h : s.GateOpen v) : v ∈ recommendedOrder := by
  rcases h with ⟨h, _⟩ | ⟨u, h, _⟩ | ⟨u, h, _⟩
  · subst h; simp [recommendedOrder]
  · have := u.isLt; simp [recommendedOrder, List.mem_range'_1]; omega
  · have := u.isLt; simp [recommendedOrder, List.mem_range'_1]; omega

/-- Clearing an indication changes only the pending indications. -/
theorem State.clearPending_frame (s : State) (v : Nat) : s.clearPending v =
    { s with
             pendingNmi := (s.clearPending v).pendingNmi,
             pendingUnitError := (s.clearPending v).pendingUnitError,
             pendingIrq := (s.clearPending v).pendingIrq } := by
  unfold State.clearPending; split
  · rfl
  · split
    · rfl
    · split <;> rfl

/-- Only vector 7 clears the NMI. -/
theorem State.clearPending_nmi (s : State) (v : Nat) : (s.clearPending v).pendingNmi = (s.pendingNmi && decide (v ≠ 7)) := by
  unfold State.clearPending; split
  · rename_i h; simp [h]
  · rename_i h
    split
    · simp [h]
    · split <;> simp [h]

/-- Only vector 8 + u clears the error of unit u. -/
theorem State.clearPending_unitError (s : State) (v : Nat) (u : Fin 8) :
    (s.clearPending v).pendingUnitError[u] = (s.pendingUnitError[u] && decide (v ≠ 8 + u)) := by
  have := u.isLt
  unfold State.clearPending; split
  · rename_i h; have : v ≠ 8 + u := by omega
    simp [this]
  · split
    · rename_i h7 h
      simp only [Fin.getElem_fin, Vector.getElem_set]
      by_cases hv : v = 8 + u
      · simp [hv]
      · have : ¬ v - 8 = u := by omega
        simp [hv, this]
    · have : v ≠ 8 + u := by omega
      split <;> simp [this]

/-- Only vector 32 + q clears IRQ q. -/
theorem State.clearPending_irq (s : State) (v : Nat) (u : Fin 32) :
    (s.clearPending v).pendingIrq[u] = (s.pendingIrq[u] && decide (v ≠ 32 + u)) := by
  have := u.isLt
  unfold State.clearPending; split
  · rename_i h; have : v ≠ 32 + u := by omega
    simp [this]
  · split
    · have : v ≠ 32 + u := by omega
      simp [this]
    · split
      · simp only [Fin.getElem_fin, Vector.getElem_set]
        by_cases hv : v = 32 + u
        · simp [hv]
        · have : ¬ v - 32 = u := by omega
          simp [hv, this]
      · have : v ≠ 32 + u := by omega
        simp [this]

end Sys2Proof.Machine
end

