-- ==== Sys2Proof/Laws/Exceptions.lean ====
section
/-! SUPPORT. Taking exceptions and interrupts: what RESET leaves, what a table entry reads as, and everything `State.raise` and
`State.interrupt` can do. -/

namespace Sys2Proof.Machine

/-- The eight slots. -/
theorem slot_cases (n : BitVec 3) : n = 0 ∨ n = 1 ∨ n = 2 ∨ n = 3 ∨ n = 4 ∨ n = 5 ∨ n = 6 ∨ n = 7 := by
  revert n; decide

/-! ### RESET -/

/-- After RESET every slot has control word 0 and undefined registers. -/
theorem State.warmReset_cop (s : State) (n : BitVec 3) : ∃ k, s.warmReset.cop n = Cop.undefinedAt 0 k := by
  rcases slot_cases n with h | h | h | h | h | h | h | h <;> subst h <;> exact ⟨_, rfl⟩

/-- No IRQ is pending at reset. -/
theorem State.reset_pendingIrq : ∀ v : Fin 32, State.reset.pendingIrq[v] = false := by decide

/-- No unit error is pending at reset. -/
theorem State.reset_pendingUnitError : ∀ v : Fin 8, State.reset.pendingUnitError[v] = false := by decide

/-- RESET gives the state R390 describes. -/
theorem State.warmReset_isReset (s : State) : s.IsReset s.warmReset where
  pc := rfl
  sysctl := rfl
  inttab := rfl
  copen := rfl
  ctl := by intro n; obtain ⟨k, h⟩ := State.warmReset_cop s n; rw [h]; rfl
  queue := by intro n; obtain ⟨k, h⟩ := State.warmReset_cop s n; rw [h]; rfl
  status := rfl
  nmi := rfl
  irq := State.reset_pendingIrq
  unitError := State.reset_pendingUnitError
  memory := fun _ => rfl
  constants := rfl

/-! ### Table entries -/

/-- The first word of a present and valid entry: its flag bits, and the address it holds. -/
theorem vectorWord_bits {a : Word} (h : a.extractLsb' 0 2 = 0) :
    (a ||| 1).getLsbD 0 = true ∧ (a ||| 1).getLsbD 1 = false ∧ (a ||| 1) &&& 0xFFFFFFFC = a := by
  have h0 : a.getLsbD 0 = false := by
    have := congrArg (fun x => BitVec.getLsbD x 0) h; simpa using this
  have h1 : a.getLsbD 1 = false := by
    have := congrArg (fun x => BitVec.getLsbD x 1) h; simpa using this
  have hb : ∀ i < 32, BitVec.getLsbD (1#32) i = decide (i = 0) := by decide
  refine ⟨by rw [BitVec.getLsbD_or]; rw [show (1 : Word) = 1#32 from rfl, hb 0 (by decide)]; simp,
    by rw [BitVec.getLsbD_or, h1]; rw [show (1 : Word) = 1#32 from rfl, hb 1 (by decide)]; simp, ?_⟩
  apply BitVec.eq_of_getLsbD_eq
  intro i hi
  rw [BitVec.getLsbD_and, BitVec.getLsbD_or, show (1 : Word) = 1#32 from rfl, hb i hi]
  have hm : ∀ i < 32, BitVec.getLsbD (0xFFFFFFFC#32) i = decide (2 ≤ i) := by decide
  rw [show (0xFFFFFFFC : Word) = 0xFFFFFFFC#32 from rfl, hm i hi]
  rcases i with _ | _ | i
  · rw [h0]; simp
  · rw [h1]; simp
  · simp

/-- A present and valid entry reads as its target. -/
theorem State.readVector_of_vectorTo {s : State} {n : Nat} {a : Word} (h : s.VectorTo n a) : s.readVector n = .target a := by
  obtain ⟨h0, h1, h2⟩ := h
  obtain ⟨e1, e2, e3⟩ := vectorWord_bits h0
  unfold State.readVector
  simp only [h1, h2]
  rw [if_neg, e3]
  rw [e1, e2]; simp

/-- A readable entry that is not present and valid reads as invalid (R352). -/
theorem State.readVector_of_invalid {s : State} {n : Nat} (h : s.InvalidEntry n) : s.readVector n = .invalid := by
  obtain ⟨w0, w1, h0, h1, hbad⟩ := h
  unfold State.readVector
  simp only [h0, h1]
  rw [if_pos]
  simp only [Bool.or_eq_true, decide_eq_true_eq]
  rcases hbad with hb | hb
  · left
    by_contra hc
    apply hb
    apply BitVec.eq_of_getLsbD_eq
    intro i hi
    simp only [not_or] at hc
    have : i = 0 ∨ i = 1 := by omega
    rcases this with rfl | rfl
    · simpa using hc.1
    · simpa using hc.2
  · exact .inr hb

/-- An entry with an unreadable word reads as a fault (R352). -/
theorem State.readVector_of_unreadable {s : State} {n : Nat} (h : s.UnreadableEntry n) : s.readVector n = .readFault := by
  unfold State.readVector
  simp only
  rcases h with h | h
  · simp only [h]
  · rw [h]
    split
    · simp_all
    · rfl
    · rfl

/-- A load depends only on memory and the constants. -/
theorem State.load_congr {s t : State} (hm : t.mem = s.mem) (hc : t.cfg = s.cfg) (a : Word) (n : Nat) :
    t.load a n = s.load a n := by unfold State.load; rw [hm, hc]

/-- A table entry depends only on memory, the constants and `inttab`. -/
theorem State.readVector_congr {s t : State} (hm : t.mem = s.mem) (hc : t.cfg = s.cfg) (hi : t.inttab = s.inttab) (n : Nat) :
    t.readVector n = s.readVector n := by
  unfold State.readVector; simp only [State.load_congr hm hc, hi]

/-- The target of a table entry is aligned. -/
theorem State.readVector_aligned {s : State} {n : Nat} {a : Word} (h : s.readVector n = .target a) :
    a.extractLsb' 0 2 = 0 := by
  unfold State.readVector at h
  simp only at h
  split at h
  · split at h
    · cases h
    · cases h
      apply BitVec.eq_of_getLsbD_eq
      intro i hi
      have : i = 0 ∨ i = 1 := by omega
      rcases this with rfl | rfl <;> simp
  · cases h
  · cases h

/-! ### Entry -/

/-- Everything taking an exception can do when it answers a next state. -/
theorem State.raise_next {s t : State} {e : Exc} (h : s.raise e = .next t) :
    (t = s.warmReset ∧ (s.sysT = true ∨ s.cfg.vectorInvalid = .ex4)) ∨
    (s.sysT = false ∧ ∃ a : Word, s.readVector e.number = .target a ∧ a.extractLsb' 0 2 = 0 ∧
      t = s.saveException.goto a) := by
  unfold State.raise at h
  split at h
  · rename_i ht
    cases h; exact .inl ⟨rfl, .inl ht⟩
  · rename_i ht
    split at h <;> cases h
    · rename_i a hv
      exact .inr ⟨by simpa using ht, a, hv, State.readVector_aligned hv, rfl⟩
    · rename_i hp; exact .inl ⟨rfl, .inr hp⟩
    · rename_i hp; exact .inl ⟨rfl, .inr hp⟩

/-- Everything taking an interrupt can do when it answers a next state. -/
theorem State.interrupt_next {s t : State} {n : Nat} (h : s.interrupt n = .next t) :
    (∃ a : Word, s.readVector n = .target a ∧ a.extractLsb' 0 2 = 0 ∧ t = s.saveReturn.goto a) ∨
    ∃ e, s.saveReturn.raise e = .next t := by
  unfold State.interrupt at h
  split at h
  · rename_i a hv
    cases h
    exact .inl ⟨a, hv, State.readVector_aligned hv, rfl⟩
  · cases h
  · cases h
  · exact .inr ⟨_, h⟩
  · exact .inr ⟨_, h⟩

end Sys2Proof.Machine
end

