-- ==== Sys2Proof/Laws/Frames.lean ====
section
/-! SUPPORT. The frames of Safety.lean: how they compose, and which primitive updates stay inside them. -/

namespace Sys2Proof.Machine

/-! ### `SameBeyondUnit` -/

/-- A unit's frame holds of no change. -/
theorem State.SameBeyondUnit.refl (n : BitVec 3) (s : State) : s.SameBeyondUnit n s :=
  ⟨fun _ => rfl, rfl, fun _ _ => ⟨rfl, rfl⟩⟩

/-- Two changes inside a unit's frame make one. -/
theorem State.SameBeyondUnit.trans {n : BitVec 3} {s t u : State} (h : s.SameBeyondUnit n t)
    (h' : t.SameBeyondUnit n u) : s.SameBeyondUnit n u := by
  obtain ⟨a1, a2, a3⟩ := h
  obtain ⟨b1, b2, b3⟩ := h'
  refine ⟨fun a => (b1 a).trans (a1 a), ?_, fun m hm => ⟨(b3 m hm).1.trans (a3 m hm).1, (b3 m hm).2.trans (a3 m hm).2⟩⟩
  rw [b2, a2]

/-- Replacing the unit's own slot stays inside its frame. -/
theorem State.sameBeyondUnit_setCop (n : BitVec 3) (s : State) (c : Cop) : s.SameBeyondUnit n (s.setCop n c) :=
  ⟨fun _ => rfl, rfl, fun m hm => ⟨by rw [State.cop_setCop, if_neg hm], rfl⟩⟩

/-- Setting the unit's own pending error stays inside its frame. -/
theorem State.sameBeyondUnit_setUnitError (n : BitVec 3) (s : State) (b : Bool) :
    s.SameBeyondUnit n (s.setUnitError n b) := by
  refine ⟨fun _ => rfl, rfl, fun m hm => ⟨rfl, ?_⟩⟩
  have : n.toNat ≠ m.toNat := fun e => hm (BitVec.eq_of_toNat_eq e.symm)
  simp [this]

/-- Using a free value stays inside every unit's frame. -/
theorem State.sameBeyondUnit_spend (n : BitVec 3) (s : State) (k : Nat) : s.SameBeyondUnit n (s.spend k) :=
  ⟨fun _ => rfl, rfl, fun _ _ => ⟨rfl, rfl⟩⟩

/-! ### `SameBeyondCore` -/

/-- The core's frame holds of no change. -/
theorem State.SameBeyondCore.refl (s : State) : s.SameBeyondCore s := ⟨fun _ => rfl, rfl⟩

/-- Two changes inside the core's frame make one. -/
theorem State.SameBeyondCore.trans {s t u : State} (h : s.SameBeyondCore t) (h' : t.SameBeyondCore u) :
    s.SameBeyondCore u := by
  obtain ⟨a1, a2⟩ := h
  obtain ⟨b1, b2⟩ := h'
  refine ⟨fun a => (b1 a).trans (a1 a), ?_⟩
  rw [b2, a2]

/-- Writing a general register stays inside the core's frame. -/
theorem State.sameBeyondCore_setReg (s : State) (i : BitVec 5) (v : Word) : s.SameBeyondCore (s.setReg i v) := by
  unfold State.setReg; split
  · exact .refl s
  · exact ⟨fun _ => rfl, rfl⟩

/-- Moving pc stays inside the core's frame. -/
theorem State.sameBeyondCore_goto (s : State) (a : Word) : s.SameBeyondCore (s.goto a) := ⟨fun _ => rfl, rfl⟩

/-- Moving to the next instruction stays inside the core's frame. -/
theorem State.sameBeyondCore_advance (s : State) : s.SameBeyondCore s.advance := ⟨fun _ => rfl, rfl⟩

/-- Writing the flags stays inside the core's frame. -/
theorem State.sameBeyondCore_setFlags (s : State) (f : BitVec 4) : s.SameBeyondCore (s.setFlags f) :=
  ⟨fun _ => rfl, rfl⟩

/-- Writing the flags or not stays inside the core's frame. -/
theorem State.sameBeyondCore_setFlagsUnless (s : State) (c : Bool) (f : BitVec 4) :
    s.SameBeyondCore (s.setFlagsUnless c f) := by
  unfold State.setFlagsUnless; split
  · exact .refl s
  · exact s.sameBeyondCore_setFlags f

end Sys2Proof.Machine
end

