-- ==== Sys2Proof/Laws/Units.lean ====
section
/-! SUPPORT. The coprocessors: the frame of everything a unit does, what its work leaves in its queue, switching units, the
pending-error check, and what a conversion rounds to and delivers. -/

namespace Sys2Proof.Machine

/-- A unit function as an instruction is what the unit runs. -/
theorem exec_toInstr (n) (u : UnitInstr) (s : State) : exec (u.toInstr n) s = runUnitInstr n u s := by cases u <;> rfl

/-- The later of two writes of a slot stands. -/
theorem State.setCop_setCop (s : State) (n) (c d : Cop) : (s.setCop n c).setCop n d = s.setCop n d := by
  unfold State.setCop; simp

/-- Setting one unit's pending error. -/
theorem State.pendingUnitError_setUnitError (s : State) (n m : BitVec 3) (b : Bool) : (s.setUnitError n b).pendingUnitError[m.toNat]'m.isLt = if m = n then b else s.pendingUnitError[m.toNat]'m.isLt := by
  simp only [State.setUnitError_pendingUnitError, Vector.getElem_set]
  by_cases h : m = n
  · subst h; simp
  · have : n.toNat ≠ m.toNat := fun e => h (BitVec.eq_of_toNat_eq e.symm)
    simp [h, this]

/-! ### Frames -/

/-- Signalling an error stays inside the unit's frame. -/
theorem State.sameBeyondUnit_signalUnitError (n) (s : State) (e) : s.SameBeyondUnit n (s.signalUnitError n e) :=
  (State.sameBeyondUnit_setCop n s _).trans (State.sameBeyondUnit_setUnitError n _ _)

/-- A write to `fpuop` stays inside the unit's frame. -/
theorem State.sameBeyondUnit_writeFpuop (n) (s : State) (v) : s.SameBeyondUnit n (s.writeFpuop n v) := by
  unfold State.writeFpuop; split
  · exact State.sameBeyondUnit_setCop n s _
  · exact State.sameBeyondUnit_signalUnitError n s _

/-- A write to `fpcsr` stays inside the unit's frame. -/
theorem State.sameBeyondUnit_writeFpcsr (n) (s : State) (v) : s.SameBeyondUnit n (s.writeFpcsr n v) := by
  unfold State.writeFpcsr; split
  · exact State.sameBeyondUnit_signalUnitError n s _
  · split
    · exact State.sameBeyondUnit_setCop n s _
    · split
      · exact (State.sameBeyondUnit_spend n s 2).trans (State.sameBeyondUnit_signalUnitError n _ _)
      · exact (State.sameBeyondUnit_spend n s 2).trans (State.sameBeyondUnit_setCop n _ _)

/-- A read of a unit's register stays inside the unit's frame. -/
theorem State.sameBeyondUnit_unitRead (n) (s : State) (i r b) : s.SameBeyondUnit n (s.unitRead n i r b).2 := by
  unfold State.unitRead; dsimp only; split
  · exact .refl n s
  · split
    · exact .refl n s
    · split
      · exact State.sameBeyondUnit_spend n s 1
      · exact .refl n s

/-- A write to a unit's register stays inside the unit's frame. -/
theorem State.sameBeyondUnit_unitWrite (n) (s : State) (i v) : s.SameBeyondUnit n (s.unitWrite n i v) := by
  unfold State.unitWrite; dsimp only; split
  · exact State.sameBeyondUnit_setCop n s _
  · split
    · exact State.sameBeyondUnit_setCop n s _
    · split
      · exact State.sameBeyondUnit_writeFpuop n s v
      · exact State.sameBeyondUnit_writeFpcsr n s v

/-- The pending-error check stays inside the unit's frame. -/
theorem State.sameBeyondUnit_checkPendingErrors (n) (s : State) : s.SameBeyondUnit n (s.checkPendingErrors n) := by
  unfold State.checkPendingErrors; dsimp only; split
  · exact State.sameBeyondUnit_signalUnitError n s _
  · exact .refl n s

/-- Delivering a conversion stays inside the unit's frame. -/
theorem State.sameBeyondUnit_deliver (n) (s : State) (d v x) : s.SameBeyondUnit n (s.deliver n d v x) :=
  (State.sameBeyondUnit_setCop n s _).trans (State.sameBeyondUnit_checkPendingErrors n _)

/-- A unit instruction stays inside the unit's frame. -/
theorem runUnitInstr_frame {u} (h : runUnitInstr n u s = .next t) : s.SameBeyondUnit n t := by
  cases u with
  | fpause k => cases h; exact .refl n s
  | fpmov i d c =>
    simp only [runUnitInstr, execFpmov] at h
    split at h
    · split at h
      · cases h
      · split at h
        · cases h
        · cases h; exact ((State.sameBeyondUnit_unitRead n s i false true).trans (State.sameBeyondUnit_unitWrite n _ _ _)).trans (State.sameBeyondUnit_checkPendingErrors n _)
    · cases h; exact State.sameBeyondUnit_checkPendingErrors n s
  | cvtf2f => cases h; exact (State.sameBeyondUnit_spend n s 1).trans (State.sameBeyondUnit_deliver n _ _ _ _)
  | cvti2f => cases h; exact State.sameBeyondUnit_deliver n _ _ _ _
  | cvtf2i => cases h; exact (State.sameBeyondUnit_spend n s 1).trans (State.sameBeyondUnit_deliver n _ _ _ _)
  | fadd => cases h
  | fsub => cases h
  | fmul => cases h
  | ffma => cases h

/-- A piece of work stays inside the unit's frame. -/
theorem runWork_frame {w} (h : runWork n w s = .next t) : s.SameBeyondUnit n t := by
  unfold runWork at h
  split at h
  · unfold runFunction at h
    split at h
    · exact (State.sameBeyondUnit_setCop n s _).trans (runUnitInstr_frame h)
    · cases h; exact (State.sameBeyondUnit_setCop n s _).trans (State.sameBeyondUnit_signalUnitError n _ _)
    · cases h
    · cases h; exact (State.sameBeyondUnit_setCop n s _).trans (State.sameBeyondUnit_signalUnitError n _ _)
  · cases h; exact State.sameBeyondUnit_unitWrite n s _ _
  · cases h; exact .refl n s
  · cases h; exact .refl n s

/-- A drained queue stays inside the unit's frame. -/
theorem drainList_frame {n : BitVec 3} {s t : State} {q} (h : drainList n q s = .next t) : s.SameBeyondUnit n t := by
  induction q generalizing s with
  | nil => cases h; exact .refl n _
  | cons w q ih =>
    obtain ⟨u, h1, h2⟩ := andThen_next h
    exact ((State.sameBeyondUnit_setCop n s _).trans (runWork_frame h1)).trans (ih h2)

/-! ### Queues -/

/-- Signalling an error keeps the queue. -/
theorem State.queue_signalUnitError (s : State) (n e) : ((s.signalUnitError n e).cop n).queue = (s.cop n).queue := by simp [State.signalUnitError, State.cop_setCop]

/-- The pending-error check keeps the queue. -/
theorem State.queue_checkPendingErrors (s : State) (n) : ((s.checkPendingErrors n).cop n).queue = (s.cop n).queue := by
  unfold State.checkPendingErrors; dsimp only; split
  · exact State.queue_signalUnitError _ _ _
  · rfl

/-- A register write keeps the queue. -/
theorem State.queue_unitWrite (s : State) (n i v) : ((s.unitWrite n i v).cop n).queue = (s.cop n).queue := by
  unfold State.unitWrite State.writeFpuop State.writeFpcsr; dsimp only
  split
  · simp [State.cop_setCop]
  · split
    · simp [State.cop_setCop]
    · split
      · split
        · simp [State.cop_setCop]
        · exact State.queue_signalUnitError _ _ _
      · split
        · exact State.queue_signalUnitError _ _ _
        · split
          · simp [State.cop_setCop]
          · split
            · simp [State.queue_signalUnitError]
            · simp [State.cop_setCop]

/-- A register read keeps the queue. -/
theorem State.queue_unitRead (s : State) (n i r b) : (((s.unitRead n i r b).2).cop n).queue = (s.cop n).queue := by
  unfold State.unitRead; dsimp only; split
  · rfl
  · split
    · rfl
    · split
      · simp
      · rfl

/-- Delivering a conversion keeps the queue. -/
theorem State.queue_deliver (s : State) (n d v x) : ((s.deliver n d v x).cop n).queue = (s.cop n).queue := by
  unfold State.deliver; dsimp only; rw [State.queue_checkPendingErrors]; simp [State.cop_setCop]

/-- A unit instruction keeps the queue. -/
theorem runUnitInstr_queue {n u} {s t : State} (h : runUnitInstr n u s = .next t) : (t.cop n).queue = (s.cop n).queue := by
  cases u with
  | fpause k => cases h; rfl
  | fpmov i d c =>
    simp only [runUnitInstr, execFpmov] at h
    split at h
    · split at h
      · cases h
      · split at h
        · cases h
        · cases h; rw [State.queue_checkPendingErrors, State.queue_unitWrite, State.queue_unitRead]
    · cases h; rw [State.queue_checkPendingErrors]
  | cvtf2f => cases h; simp [State.queue_deliver]
  | cvti2f => cases h; simp [State.queue_deliver]
  | cvtf2i => cases h; simp [State.queue_deliver]
  | fadd => cases h
  | fsub => cases h
  | fmul => cases h
  | ffma => cases h

/-- A piece of work keeps the rest of the queue. -/
theorem runWork_queue {n w} {s t : State} (h : runWork n w s = .next t) : (t.cop n).queue = (s.cop n).queue := by
  unfold runWork at h
  split at h
  · unfold runFunction at h
    split at h
    · rw [runUnitInstr_queue h]; simp [State.markBegun, State.cop_setCop]
    · cases h; rw [State.queue_signalUnitError]; simp [State.markBegun, State.cop_setCop]
    · cases h
    · cases h; rw [State.queue_signalUnitError]; simp [State.markBegun, State.cop_setCop]
  · cases h; rw [State.queue_unitWrite]
  · cases h; rfl
  · cases h; rfl

/-- A drained queue is empty. -/
theorem drainList_queue {n q} {s t : State} (h : drainList n q s = .next t) : (t.cop n).queue = if q = [] then (s.cop n).queue else [] := by
  induction q generalizing s with
  | nil => cases h; rfl
  | cons w q ih =>
    obtain ⟨u, h1, h2⟩ := andThen_next h
    rw [ih h2, runWork_queue h1]
    simp [State.setQueue, State.cop_setCop]

/-- An opaque coprocessor finishes any work, and only its queue changes (log 18). -/
theorem drainList_opaque (n : BitVec 3) (q : List UnitWork) (s : State) {rd wr} (hk : s.kind n = .other rd wr) :
    ∃ t, drainList n q s = .next t ∧ t = if q = [] then s else s.setCop n { s.cop n with queue := [] } := by
  induction q generalizing s with
  | nil => exact ⟨s, rfl, rfl⟩
  | cons w q ih =>
    have h1 : runWork n w (s.setQueue n q) = .next (s.setQueue n q) := by
      unfold runWork
      have : (s.setQueue n q).kind n = .other rd wr := by unfold State.setQueue; simpa using hk
      rw [this]; cases w <;> rfl
    obtain ⟨t, ht, he⟩ := ih (s.setQueue n q) (by unfold State.setQueue; simpa using hk)
    refine ⟨t, by simp only [drainList, h1, andThen]; exact ht, ?_⟩
    rw [he]
    split
    · rename_i h; subst h; simp [State.setQueue]
    · simp [State.setQueue, State.setCop_setCop, State.cop_setCop]

/-- A pending status write at the end of the queue is dropped (R277). -/
theorem dropPendingWrite_append (q : List UnitWork) (a v) : dropPendingWrite (q ++ [.statusWrite a v]) = q := by
  induction q with
  | nil => rfl
  | cons w q ih =>
    cases w with
    | statusWrite b u => cases q with
      | nil => rfl
      | cons x q => simpa [dropPendingWrite] using ih
    | instr f p => simpa [dropPendingWrite] using ih
    | settle => simpa [dropPendingWrite] using ih

/-- A queue that ends otherwise is kept (R277). -/
theorem dropPendingWrite_other (q : List UnitWork) (h : ∀ q' a v, q ≠ q' ++ [.statusWrite a v]) : dropPendingWrite q = q := by
  induction q with
  | nil => rfl
  | cons w q ih =>
    have ih' : dropPendingWrite q = q := ih fun q' a v e => h (w :: q') a v (by rw [e]; rfl)
    cases w with
    | statusWrite b u => cases q with
      | nil => exact absurd rfl (h [] b u)
      | cons x q => simpa [dropPendingWrite] using ih'
    | instr f p => simpa [dropPendingWrite] using ih'
    | settle => simpa [dropPendingWrite] using ih'

/-! ### Status registers -/

/-- Work is issued and pending exactly when a unit instruction is queued (R275). -/
theorem issuedPending_iff (q : List UnitWork) : issuedPending q = true ↔ ∃ f p, UnitWork.instr f p ∈ q := by
  unfold issuedPending
  rw [List.any_eq_true]
  constructor
  · rintro ⟨w, hw, hi⟩
    cases w with
    | instr f p => exact ⟨f, p, hw⟩
    | statusWrite a v => cases hi
    | settle => cases hi
  · rintro ⟨f, p, h⟩
    exact ⟨_, h, rfl⟩

/-- Everything a write to `fpuop` can do (R275). -/
theorem State.writeFpuop_spec (s : State) (n : BitVec 3) (v : Word) :
    (v = 0 ∧ s.writeFpuop n v =
      s.setCop n { s.cop n with opX := 0, opU := issuedPending (s.cop n).queue, opBegun := false }) ∨
    (v ≠ 0 ∧ s.writeFpuop n v = s.signalUnitError n 3) := by
  unfold State.writeFpuop
  split
  · rename_i h
    exact .inl ⟨h, rfl⟩
  · rename_i h
    exact .inr ⟨h, rfl⟩

/-- A write keeps the z bits exactly when they are equal before and after. -/
theorem preserve_iff (v c : Word) : (v ^^^ c) &&& 0x0000FC10#32 = 0#32 ↔ v &&& 0x0000FC10#32 = c &&& 0x0000FC10#32 := by
  have : (v ^^^ c) &&& 0x0000FC10#32 = (v &&& 0x0000FC10#32) ^^^ (c &&& 0x0000FC10#32) := by
    apply BitVec.eq_of_getLsbD_eq; intro i hi
    simp only [BitVec.getLsbD_and, BitVec.getLsbD_xor]
    cases v.getLsbD i <;> cases c.getLsbD i <;> simp
  rw [this, BitVec.xor_eq_zero_iff]

/-- The check's test, bit by bit (R281). -/
theorem unmasked_iff (c : Word) : c.extractLsb' 5 5 &&& c.extractLsb' 21 5 ≠ 0 ↔ unmaskedIndication c := by
  unfold unmaskedIndication
  constructor
  · intro h
    by_contra hc
    simp only [not_exists, not_and] at hc
    apply h
    apply BitVec.eq_of_getLsbD_eq
    intro i hi
    have := hc ⟨i, hi⟩
    simp only [BitVec.getLsbD_and, BitVec.getLsbD_extractLsb', hi, decide_true, Bool.true_and] at this ⊢
    simpa using this
  · rintro ⟨k, h1, h2⟩ h
    have := congrArg (fun x => BitVec.getLsbD x k) h
    simp [h1, h2] at this

/-- Everything the pending-error check can do (R281). -/
theorem State.checkPendingErrors_spec (n) (s : State) : ((unmaskedIndication (s.cop n).csr ∧ s.checkPendingErrors n = s.signalUnitError n 1) ∨ (¬ unmaskedIndication (s.cop n).csr ∧ s.checkPendingErrors n = s)) := by
  unfold State.checkPendingErrors
  dsimp only
  by_cases h : unmaskedIndication (s.cop n).csr
  · rw [if_pos ((unmasked_iff _).2 h)]; exact .inl ⟨h, rfl⟩
  · rw [if_neg (fun x => h ((unmasked_iff _).1 x))]; exact .inr ⟨h, rfl⟩

/-- The check changes at most the error number of its slot. -/
theorem State.checkPendingErrors_cop (n) (s : State) : ((s.checkPendingErrors n).cop n) = { s.cop n with opX := ((s.checkPendingErrors n).cop n).opX } := by
  rcases State.checkPendingErrors_spec n s with ⟨_, h⟩ | ⟨_, h⟩ <;> rw [h]
  simp [State.signalUnitError, State.cop_setCop]

/-- The check leaves the errors R281 says. -/
theorem State.checkPendingErrors_errors (n) (s : State) : State.CheckedErrors n (s.cop n).opX (s.pendingUnitError[n.toNat]'n.isLt) (s.checkPendingErrors n) := by
  unfold State.CheckedErrors
  rw [show ((s.checkPendingErrors n).cop n).csr = (s.cop n).csr by rw [State.checkPendingErrors_cop]]
  rcases State.checkPendingErrors_spec n s with ⟨h0, h⟩ | ⟨h0, h⟩ <;> rw [h]
  · exact ⟨fun _ => ⟨by simp [State.signalUnitError, State.cop_setCop], by simp [State.signalUnitError]⟩, fun x => absurd h0 x⟩
  · exact ⟨fun x => absurd x h0, fun _ => ⟨rfl, rfl⟩⟩

/-! ### Enabling and disabling -/

/-- Switching a unit does not write `copen` itself. -/
theorem State.switchUnit_copen (v : Word) (s : State) (n : BitVec 3) : (s.switchUnit v n).copen = s.copen := by
  unfold State.switchUnit State.enableUnit State.disableUnit State.setQueue
  split
  · simp
  · split <;> simp

/-- Switching a unit stays inside its frame. -/
theorem State.sameBeyondUnit_switchUnit (v : Word) (s : State) (n : BitVec 3) : s.SameBeyondUnit n (s.switchUnit v n) := by
  unfold State.switchUnit State.enableUnit State.disableUnit State.setQueue
  split
  · exact ((State.sameBeyondUnit_setCop n s _).trans (State.sameBeyondUnit_setUnitError n _ _)).trans (State.sameBeyondUnit_spend n _ _)
  · split
    · exact (State.sameBeyondUnit_setCop n s _).trans (State.sameBeyondUnit_setUnitError n _ _)
    · exact .refl n s

/-- What switching a unit leaves of it, by its old and its new `copen` bit (R273). -/
def Switched (v : Word) (s t : State) (n : BitVec 3) : Prop :=
      (v.getLsbD n.toNat = s.copen.getLsbD n.toNat →
        t.cop n = s.cop n ∧ t.pendingUnitError[n.toNat]'n.isLt = s.pendingUnitError[n.toNat]'n.isLt) ∧
      (v.getLsbD n.toNat = true → s.copen.getLsbD n.toNat = false →
        (t.cop n).ctl = (s.cop n).ctl ∧ (t.cop n).queue = [] ∧ (t.cop n).opX = 0 ∧ (t.cop n).opU = false ∧
        t.pendingUnitError[n.toNat]'n.isLt = false) ∧
      (v.getLsbD n.toNat = false → s.copen.getLsbD n.toNat = true →
        t.cop n = { s.cop n with queue := [] } ∧ t.pendingUnitError[n.toNat]'n.isLt = false)

/-- Switching a unit does that. -/
theorem State.switchUnit_switched (v : Word) (s : State) (n : BitVec 3) : Switched v s (s.switchUnit v n) n := by
  unfold Switched State.switchUnit
  cases hv : v.getLsbD n.toNat <;> cases hc : s.copen.getLsbD n.toNat <;>
    simp [State.enableUnit, State.disableUnit, State.setQueue, State.cop_setCop, Cop.undefinedAt]

/-- Everything a write to `copen` does to the units. -/
theorem State.switchUnits_spec (v : Word) (l : List (BitVec 3)) (hl : l.Nodup) (s : State) :
    (l.foldl (State.switchUnit v) s).copen = s.copen ∧
    (∀ n ∈ l, Switched v s (l.foldl (State.switchUnit v) s) n) ∧
    (∀ n, n ∉ l → (l.foldl (State.switchUnit v) s).cop n = s.cop n ∧ (l.foldl (State.switchUnit v) s).pendingUnitError[n.toNat]'n.isLt = s.pendingUnitError[n.toNat]'n.isLt) ∧
    (∀ a, (l.foldl (State.switchUnit v) s).byteAt a = s.byteAt a) ∧
    (l.foldl (State.switchUnit v) s) = { s with cops := (l.foldl (State.switchUnit v) s).cops, pendingUnitError := (l.foldl (State.switchUnit v) s).pendingUnitError, fresh := (l.foldl (State.switchUnit v) s).fresh } := by
  induction l generalizing s with
  | nil => exact ⟨rfl, nofun, fun _ _ => ⟨rfl, rfl⟩, fun _ => rfl, rfl⟩
  | cons k l ih =>
    simp only [List.nodup_cons] at hl
    simp only [List.foldl_cons]
    obtain ⟨c, r, o, m, f⟩ := ih hl.2 (s.switchUnit v k)
    have fk := State.sameBeyondUnit_switchUnit v s k
    have ck := State.switchUnit_copen v s k
    have sk := State.switchUnit_switched v s k
    refine ⟨c.trans ck, ?_, ?_, fun a => (m a).trans (fk.1 a), ?_⟩
    · intro n hn
      by_cases h : n = k
      · subst h
        have := o n hl.1
        unfold Switched at sk ⊢
        rw [this.1, this.2]; exact sk
      · have hn' : n ∈ l := by simpa [h] using hn
        have := r n hn'
        unfold Switched at this ⊢
        rw [ck, (fk.2.2 n h).1, (fk.2.2 n h).2] at this
        exact this
    · intro n hn
      simp only [List.mem_cons, not_or] at hn
      exact ⟨(o n hn.2).1.trans (fk.2.2 n hn.1).1, (o n hn.2).2.trans (fk.2.2 n hn.1).2⟩
    · rw [f]; rw [fk.2.1]

/-! ### Conversions -/

/-- What roundAt gives at the place of the units: the integer the mode rounds to, and whether it is inexact. -/
theorem roundAt_spec (rnd : RoundMode) (neg : Bool) (m : Nat) (e : Int) :
    let r := roundAt rnd neg m e 0
    let z : Int := if neg then -(r.1 : Int) else r.1
    let num : Int := (if neg then -(m : Int) else m) * 2 ^ e.toNat
    let den : Nat := 2 ^ (-e).toNat
    RoundsTo rnd num den z ∧ (r.2 = true ↔ num % den ≠ 0) := by
  dsimp only
  unfold roundAt
  by_cases he : 0 ≤ e
  · rw [if_pos he]
    have h0 : (-e).toNat = 0 := by omega
    have hz : (if neg then -((m * 2 ^ (e - 0).toNat : Nat) : Int) else ((m * 2 ^ (e - 0).toNat : Nat) : Int)) = (if neg then -(m : Int) else m) * 2 ^ e.toNat := by
      rw [Int.sub_zero]; cases neg <;> simp
    simp only [hz, h0, Nat.pow_zero]
    generalize (if neg then -(m : Int) else m) * 2 ^ e.toNat = N
    refine ⟨?_, by simp⟩
    cases rnd <;> simp [RoundsTo]
  · rw [if_neg he]
    have h0 : e.toNat = 0 := by omega
    have h1 : (0 - e).toNat = (-e).toNat := by omega
    simp only [h0, h1, Int.pow_zero, Int.mul_one]
    generalize hd : (-e).toNat = d
    have hp : 0 < 2 ^ d := Nat.two_pow_pos d
    have hdm := Nat.div_add_mod m (2 ^ d)
    have hlt := Nat.mod_lt m hp
    generalize hD : 2 ^ d = D at *
    generalize hk : m / D = k at *
    generalize hr : m % D = r at *
    have hmod : (decide (r ≠ 0) = true ↔ (if neg then -(m : Int) else m) % (D : Int) ≠ 0) := by
      have : ((m : Int) % D) = r := by rw [← hr]; simp
      have key : (m : Int) % D = 0 ↔ r = 0 := by rw [this]; omega
      have key2 : (-(m : Int)) % D = 0 ↔ r = 0 := by
        rw [← key]; exact ⟨fun h => Int.emod_eq_zero_of_dvd ((Int.dvd_neg).1 (Int.dvd_of_emod_eq_zero h)), fun h => Int.emod_eq_zero_of_dvd ((Int.dvd_neg).2 (Int.dvd_of_emod_eq_zero h))⟩
      cases neg
      · simp only [Bool.false_eq_true, if_false, ne_eq, key, decide_eq_true_eq]
      · simp only [if_true, ne_eq, key2, decide_eq_true_eq]
    refine ⟨?_, hmod⟩
    have hm : (m : Int) = D * k + r := by rw [← hdm]; push_cast; rfl
    have hpar : ∀ q : Nat, (k % 2 == q) = true ↔ k % 2 = q := by intro q; simp
    cases rnd
    · simp only [RoundsTo, roundsUp, hD]
      by_cases hc : (decide (D < 2 * r) || decide (2 * r = D) && k % 2 == 1) = true
      · rw [if_pos hc]
        have e1 : ((if neg then -(m : Int) else m) - (if neg then -((k + 1 : Nat) : Int) else ((k + 1 : Nat) : Int)) * D).natAbs = D - r := by
          rw [hm]
          have : ((D : Int) * k + r - (k + 1 : Nat) * D) = -((D : Int) - r) := by push_cast; ring
          cases neg
          · simp only [Bool.false_eq_true, if_false]; rw [this]; omega
          · simp only [if_true]
            rw [show (-((D : Int) * k + r) - -((k + 1 : Nat) : Int) * D) = (D : Int) - r by push_cast; ring]; omega
        simp only [e1]
        simp at hc
        refine ⟨by omega, fun h => ?_⟩
        have : k % 2 = 1 := by omega
        cases neg <;> simp <;> omega
      · rw [if_neg hc]
        have e1 : ((if neg then -(m : Int) else m) - (if neg then -(k : Int) else (k : Int)) * D).natAbs = r := by
          rw [hm]
          cases neg
          · simp only [Bool.false_eq_true, if_false]; rw [show (D : Int) * k + r - k * D = r by ring]; omega
          · simp only [if_true]; rw [show -((D : Int) * k + r) - -(k : Int) * D = -(r : Int) by ring]; omega
        simp only [e1]
        simp at hc
        refine ⟨by omega, fun h => ?_⟩
        have : k % 2 = 0 := by omega
        cases neg <;> simp <;> omega
    · simp only [RoundsTo, roundsUp, Bool.false_eq_true, if_false]
      have : (m : Int).tdiv D = k := by rw [← hk]; rfl
      cases neg
      · simp [this]
      · simp [Int.neg_tdiv, this]
    · simp only [RoundsTo, roundsUp]
      have c1 : (k : Int) * D = D * k := by ring
      cases neg
      · by_cases h : r = 0
        · simp [h] at hm ⊢; rw [hm]
          have : ((k : Int) - 1) * D = D * k - D := by ring
          rw [this, c1]; omega
        · simp [h, hm]
          have : ((k : Int) + 1) * D = D * k + D := by ring
          rw [this, c1]; omega
      · simp [hm]
        have : (-(k : Int) - 1) * D = -(D * k) - D := by ring
        rw [this, c1]; omega
    · simp only [RoundsTo, roundsUp]
      have c1 : (k : Int) * D = D * k := by ring
      cases neg
      · simp [hm]
        have : ((k : Int) + 1) * D = D * k + D := by ring
        rw [this, c1]; omega
      · by_cases h : r = 0
        · simp [h] at hm ⊢; rw [hm]
          have : (-(k : Int) + 1) * D = -(D * k) + D := by ring
          rw [this, c1]; omega
        · simp [h, hm]
          have h2 : (-1 + -(k : Int)) * D = -(D * k) - D := by ring
          simp only [c1, h2]; omega

/-- What delivering a conversion's result leaves in the slot: fp[d], the added indications, and the checked error number. -/
theorem State.deliver_cop (s : State) (n) (d v x) :
    (s.deliver n d v x).cop n = { s.cop n with
      fp := (s.cop n).fp.set d.toNat v d.isLt
      csr := (s.cop n).csr ||| x.bits
      opX := ((s.deliver n d v x).cop n).opX } := by
  conv_lhs => unfold State.deliver
  rw [State.checkPendingErrors_cop]
  simp [State.cop_setCop, State.deliver]

end Sys2Proof.Machine
end

