-- ==== Sys2Proof/Laws/Maps.lean ====
section
/-! SUPPORT. The register maps: how the map number selects, and what MOV does once its register is allowed. -/

namespace Sys2Proof.Machine

/-- Map 8+n belongs to coprocessor n. -/
theorem mapUnit_append (n : BitVec 3) : mapUnit (1#1 ++ n) = n := by revert n; decide

/-- Map 4 register n is coprocessor n's control word. -/
theorem ctlUnit_setWidth (n : BitVec 3) : ctlUnit (n.setWidth 5) = n := by revert n; decide

/-- Every map number. -/
theorem map_cases (m : BitVec 4) : m = 0 ∨ m = 1 ∨ m = 2 ∨ m = 3 ∨ m = 4 ∨ m = 5 ∨ m = 6 ∨ m = 7 ∨ ∃ n : BitVec 3, m = 1#1 ++ n := by
  revert m; decide

/-- The control-word registers of Map 4. -/
theorem ctlRegister_iff (i : BitVec 5) : (i.toNat < 8 ↔ ∃ n : BitVec 3, i = n.setWidth 5) := by revert i; decide

/-- Readable in a coprocessor's map. -/
theorem State.readable_unit (s : State) (n i) : s.readable (1#1 ++ n) i = s.unitAccess n i false := by
  rcases slot_cases n with h | h | h | h | h | h | h | h <;> subst h <;> rfl

/-- Writable in a coprocessor's map. -/
theorem State.writable_unit (s : State) (n i) : s.writable (1#1 ++ n) i = s.unitAccess n i true := by
  rcases slot_cases n with h | h | h | h | h | h | h | h <;> subst h <;> rfl

/-- A read in a coprocessor's map. -/
theorem State.mapRead_unit (s : State) (n i) : s.mapRead (1#1 ++ n) i = s.cpuUnitRead n i := by
  rcases slot_cases n with h | h | h | h | h | h | h | h <;> subst h <;> rfl

/-- The value check in a coprocessor's map. -/
theorem State.validValue_unit (s : State) (n i v) : s.validValue (1#1 ++ n) i v = s.unitAccepts n true := by
  rcases slot_cases n with h | h | h | h | h | h | h | h <;> subst h <;> rfl

/-- A write in a coprocessor's map. -/
theorem State.mapWrite_unit (s : State) (n i v) : s.mapWrite (1#1 ++ n) i v = match s.kind n with
    | .fpu => s.cpuUnitWrite n i v
    | .other _ _ => s := by
  rcases slot_cases n with h | h | h | h | h | h | h | h <;> subst h <;> rfl

/-- A two-way access is defined when its test holds. -/
theorem Access.ofBool_defined (b : Bool) : Access.ofBool b = .defined ↔ b = true := by cases b <;> simp [Access.ofBool]

/-- A two-way access is never undescribed. -/
theorem Access.ofBool_described (b : Bool) : Access.ofBool b ≠ .undescribed := by cases b <;> simp [Access.ofBool]

/-- Access to a register of map 8+n (R51, R272). -/
theorem State.unitAccess_iff (s : State) (n i w) : (s.unitAccess n i w = .defined ↔ s.enabled n = true ∧
    ((s.kind n = .fpu ∧ i.toNat < 26) ∨ ∃ rd wr, s.kind n = .other rd wr ∧ i ∈ (if w then wr else rd))) ∧
    (s.unitAccess n i w = .undescribed ↔ s.enabled n = true ∧ s.kind n = .fpu ∧ 26 ≤ i.toNat) := by
  unfold State.unitAccess
  cases he : s.enabled n
  · simp
  · cases hk : s.kind n with
    | fpu => 
      simp only [unitRegDescribed]
      by_cases h : i.toNat < 26 <;> simp [h]; omega
    | other rd wr => 
      simp [Access.ofBool_defined, Access.ofBool_described]

/-- A map read uses at most a free value. -/
theorem State.mapRead_frame (s : State) (m i) : (s.mapRead m i).2 = { s with fresh := (s.mapRead m i).2.fresh } := by
  rcases map_cases m with h | h | h | h | h | h | h | h | ⟨n, h⟩ <;> subst h <;> try rfl
  rw [State.mapRead_unit]
  unfold State.cpuUnitRead State.unitRead
  split
  · dsimp only
    split
    · rfl
    · split
      · rfl
      · split <;> rfl
  · rfl

/-- The value check uses at most a free choice. -/
theorem State.validValue_frame (s : State) (m i v) : (s.validValue m i v).2 = { s with fresh := (s.validValue m i v).2.fresh } := by
  have hu : ∀ n b, (s.unitAccepts n b).2 = { s with fresh := (s.unitAccepts n b).2.fresh } := by
    intro n b; unfold State.unitAccepts; split <;> rfl
  rcases map_cases m with h | h | h | h | h | h | h | h | ⟨n, h⟩ <;> subst h
  · rfl
  · have : (s.validValue 1 i v).2 = s := by
      show (if i = 0 then (v.extractLsb' 1 30 == 0, s)
        else if i = 2 then (v.extractLsb' 0 3 == 0, s) else (true, s)).2 = s
      split
      · rfl
      · split <;> rfl
    rw [this]
  · rfl
  · rfl
  · show (if i.toNat < 8 then s.unitAccepts (ctlUnit i) (v.extractLsb' 1 31 == 0)
    else (v.extractLsb' 8 24 == 0 && v.extractLsb' 0 8 &&& ~~~s.cfg.copPresent == 0, s)).2 = _
    split
    · rename_i h
      have : s.validValue 4 i v = s.unitAccepts (ctlUnit i) (v.extractLsb' 1 31 == 0) := by
        show (if i.toNat < 8 then s.unitAccepts (ctlUnit i) (v.extractLsb' 1 31 == 0)
          else (v.extractLsb' 8 24 == 0 && v.extractLsb' 0 8 &&& ~~~s.cfg.copPresent == 0, s)) = _
        rw [if_pos h]
      rw [this]; exact hu _ _
    · rename_i h
      have : s.validValue 4 i v = (v.extractLsb' 8 24 == 0 && v.extractLsb' 0 8 &&& ~~~s.cfg.copPresent == 0, s) := by
        show (if i.toNat < 8 then s.unitAccepts (ctlUnit i) (v.extractLsb' 1 31 == 0)
          else (v.extractLsb' 8 24 == 0 && v.extractLsb' 0 8 &&& ~~~s.cfg.copPresent == 0, s)) = _
        rw [if_neg h]
      rw [this]
  · rfl
  · rfl
  · rfl
  · have : s.validValue (1#1 ++ n) i v = s.unitAccepts n true := by
      rcases slot_cases n with h | h | h | h | h | h | h | h <;> subst h <;> rfl
    rw [this]; exact hu _ _

/-- A MOV out of a readable register whose condition holds (R144). -/
theorem exec_mov_read (d i : BitVec 5) (l : Bool) (c : Cond) (m : BitVec 4) (s : State) (hc : c.holds s.flags = true)
    (h : s.readable m i = .defined) :
    exec (.mov d i l c false m) s = .next (((s.mapRead m i).2).setReg d (s.mapRead m i).1).advance := by
  simp only [exec, execMov, State.movAccess, Bool.false_eq_true, if_false, h, hc, if_true, moveValue]
  rfl

/-- A MOV into a writable register whose condition holds (R144). -/
theorem exec_mov_write (d i : BitVec 5) (l : Bool) (c : Cond) (m : BitVec 4) (s : State) (hc : c.holds s.flags = true)
    (h : s.writable m d = .defined) :
    exec (.mov d i l c true m) s = (if (s.validValue m d (s.reg i)).1 = true then
      .next (((s.validValue m d (s.reg i)).2).mapWrite m d (s.reg i)).advance
      else ((s.validValue m d (s.reg i)).2).raise .consistency) := by
  simp only [exec, execMov, State.movAccess, h, hc, if_true, moveValue]
  rfl

end Sys2Proof.Machine
end

