-- ==== Sys2Proof/Laws/Memory.lean ====
section
/-! SUPPORT. Memory: a read after a write, and every operation keeps the canonical form (20_memory.md R70, R74, R75). -/

namespace Sys2Proof.Machine

/-! ### Reading one byte after writing one -/

/-- A byte below the lowest listed address is blank. -/
theorem Memory.read_below {low : Nat} {m : Memory} (h : Memory.wfFrom low m = true) {a : Nat} (ha : a < low) :
    Memory.read m a = Memory.blank := by
  induction m generalizing low with
  | nil => rfl
  | cons c m ih =>
    obtain ⟨a', b'⟩ := c
    simp only [Memory.wfFrom, Bool.and_eq_true, decide_eq_true_eq] at h
    have : a ≠ a' := by omega
    simp only [Memory.read, this, if_false]
    exact ih h.2 (by omega)

/-- Reading after writing one byte, in a canonical memory. -/
theorem Memory.read_write_from {low : Nat} {m : Memory} (h : Memory.wfFrom low m = true) (a a' : Nat) (b : Byte) :
    Memory.read (Memory.write m a b) a' = if a' = a then b else Memory.read m a' := by
  induction m generalizing low with
  | nil =>
    unfold Memory.write
    by_cases hb : b = Memory.blank <;> by_cases ha : a' = a <;> simp [hb, ha, Memory.read]
  | cons c m ih =>
    obtain ⟨c, d⟩ := c
    simp only [Memory.wfFrom, Bool.and_eq_true, decide_eq_true_eq, bne_iff_ne] at h
    have below : ∀ {x}, x < c + 1 → Memory.read m x = Memory.blank := fun hx => Memory.read_below h.2 hx
    unfold Memory.write
    by_cases h1 : a < c
    · have hne : a ≠ c := by omega
      by_cases hb : b = Memory.blank
      · subst hb
        simp only [h1, if_true, Memory.read]
        by_cases ha : a' = a
        · subst ha; simp [hne, below (x := a') (by omega)]
        · simp [ha]
      · simp only [h1, if_true, hb, if_false, Memory.read]
    · by_cases h2 : a = c
      · subst h2
        by_cases hb : b = Memory.blank
        · subst hb
          simp only [h1, if_false, if_true, Memory.read]
          by_cases ha : a' = a
          · subst ha; simp [below (x := a') (by omega)]
          · simp [ha]
        · by_cases ha : a' = a <;> simp [hb, ha, Memory.read]
      · simp only [h1, h2, if_false, Memory.read]
        rw [ih h.2]
        by_cases hc : a' = c
        · subst hc; simp [Ne.symm h2]
        · simp [hc]

/-- Reading after writing one byte. -/
theorem Memory.read_write {m : Memory} (h : m.wf = true) (a a' : Nat) (b : Byte) :
    (m.write a b).read a' = if a' = a then b else m.read a' := Memory.read_write_from h a a' b

/-- A one-byte write leaves every other byte, whatever the form of the memory. -/
theorem Memory.read_write_ne (m : Memory) {a a' : Nat} (h : a' ≠ a) (b : Byte) :
    (m.write a b).read a' = m.read a' := by
  induction m with
  | nil => unfold Memory.write; split <;> simp [Memory.read, h]
  | cons c m ih =>
    obtain ⟨c, d⟩ := c
    unfold Memory.write
    split
    · split <;> simp [Memory.read, h]
    · split
      · rename_i hac
        subst hac
        split <;> simp [Memory.read, h]
      · simp [Memory.read, ih]

/-! ### The canonical form -/

/-- A canonical memory from `low` is one from any lower bound. -/
theorem Memory.wfFrom_mono {low low' : Nat} (hl : low' ≤ low) {m : Memory} (h : Memory.wfFrom low m = true) :
    Memory.wfFrom low' m = true := by
  cases m with
  | nil => rfl
  | cons c m =>
    obtain ⟨c, d⟩ := c
    simp only [Memory.wfFrom, Bool.and_eq_true, decide_eq_true_eq] at h ⊢
    exact ⟨⟨⟨by omega, h.1.1.2⟩, h.1.2⟩, h.2⟩

/-- Writing one byte keeps the canonical form above `low`. -/
theorem Memory.wfFrom_write {low : Nat} {m : Memory} (h : Memory.wfFrom low m = true) {a : Nat} (hlow : low ≤ a)
    (ha : a < 2 ^ 32) (b : Byte) : Memory.wfFrom low (Memory.write m a b) = true := by
  induction m generalizing low with
  | nil =>
    unfold Memory.write
    by_cases hb : b = Memory.blank
    · simp [hb, Memory.wfFrom]
    · simp only [hb, if_false, Memory.wfFrom, Bool.and_true, Bool.and_eq_true, decide_eq_true_eq, bne_iff_ne]
      exact ⟨⟨hlow, ha⟩, hb⟩
  | cons c m ih =>
    obtain ⟨c, d⟩ := c
    simp only [Memory.wfFrom, Bool.and_eq_true, decide_eq_true_eq, bne_iff_ne] at h
    unfold Memory.write
    by_cases h1 : a < c
    · by_cases hb : b = Memory.blank
      · simp only [h1, hb, if_true, Memory.wfFrom, Bool.and_eq_true, decide_eq_true_eq, bne_iff_ne]
        exact h
      · simp only [h1, hb, if_true, if_false, Memory.wfFrom, Bool.and_eq_true, decide_eq_true_eq, bne_iff_ne]
        exact ⟨⟨⟨hlow, ha⟩, hb⟩, ⟨⟨by omega, h.1.1.2⟩, h.1.2⟩, h.2⟩
    · by_cases h2 : a = c
      · subst h2
        by_cases hb : b = Memory.blank
        · simp only [h1, hb, if_true, if_false]
          exact Memory.wfFrom_mono (by omega) h.2
        · simp only [h1, hb, if_true, if_false, Memory.wfFrom, Bool.and_eq_true, decide_eq_true_eq, bne_iff_ne]
          exact ⟨⟨⟨hlow, ha⟩, hb⟩, h.2⟩
      · simp only [h1, h2, if_false, Memory.wfFrom, Bool.and_eq_true, decide_eq_true_eq, bne_iff_ne]
        exact ⟨h.1, ih h.2 (by omega)⟩

/-- Writing one byte keeps the canonical form. -/
theorem Memory.wf_write {m : Memory} (h : m.wf = true) (a : Word) (b : Byte) : (m.write a.toNat b).wf = true :=
  Memory.wfFrom_write h (Nat.zero_le _) a.isLt b

/-- A multi-byte write keeps the canonical form. -/
theorem Memory.wf_writeLE {m : Memory} (h : m.wf = true) (a v : Word) (n : Nat) : (m.writeLE a v n).wf = true := by
  induction n generalizing m a v with
  | zero => exact h
  | succ n ih => exact ih (Memory.wf_write h a _) (a + 1) (v >>> 8)

/-- A store keeps the canonical form. -/
theorem State.wf_storeBytes {s : State} (h : s.mem.wf = true) (a : Word) (n : Nat) (v : Word) :
    (s.storeBytes a n v).mem.wf = true := Memory.wf_writeLE h a v n

/-- Reset memory has the canonical form. -/
theorem State.wf_reset : State.reset.mem.wf = true := rfl

/-- Memory placed by `withFetchWord` has the canonical form. -/
theorem Memory.wf_withFetch {m : Memory} (h : m.wf = true) (a v : Word) : (m.writeLE a v 4).wf = true :=
  Memory.wf_writeLE h a v 4

/-! ### Multi-byte writes -/

/-- Stepping to the next address. -/
theorem addr_succ (a : Word) (k : Nat) : a + 1 + BitVec.ofNat 32 k = a + BitVec.ofNat 32 (k + 1) := by
  apply BitVec.eq_of_toNat_eq
  have : (1 : Word).toNat = 1 := rfl
  simp only [BitVec.toNat_add, BitVec.toNat_ofNat, this]
  omega

/-- A multi-byte write leaves every byte it does not cover. -/
theorem Memory.read_writeLE_ne (m : Memory) (a v : Word) (n : Nat) (b : Word)
    (h : ∀ k < n, b ≠ a + BitVec.ofNat 32 k) : (m.writeLE a v n).read b.toNat = m.read b.toNat := by
  induction n generalizing m a v with
  | zero => rfl
  | succ n ih =>
    unfold Memory.writeLE
    rw [ih]
    · apply Memory.read_write_ne
      intro e
      exact h 0 (by omega) (by simpa using BitVec.eq_of_toNat_eq e)
    · intro k hk e
      apply h (k + 1) (by omega)
      rw [e, addr_succ]

/-- A store leaves every byte it does not cover. -/
theorem State.byteAt_storeBytes_ne (s : State) (a : Word) (n : Nat) (v b : Word)
    (h : ∀ k < n, b ≠ a + BitVec.ofNat 32 k) : (s.storeBytes a n v).byteAt b = s.byteAt b :=
  Memory.read_writeLE_ne s.mem a v n b h

/-- Byte k of a multi-byte write is byte k of the value (R71, R75). -/
theorem Memory.read_writeLE {m : Memory} (hm : m.wf = true) (a v : Word) {n k : Nat} (hn : n ≤ 4) (hk : k < n) :
    (m.writeLE a v n).read (a + BitVec.ofNat 32 k).toNat = (v >>> (8 * k)).setWidth 8 := by
  induction n generalizing m a v k with
  | zero => omega
  | succ n ih =>
    unfold Memory.writeLE
    cases k with
    | zero =>
      rw [Memory.read_writeLE_ne]
      · simp [Memory.read_write hm]
      · intro j hj e
        rw [addr_succ] at e
        have := congrArg BitVec.toNat e
        simp only [BitVec.toNat_add, BitVec.toNat_ofNat] at this
        have := a.isLt
        omega
    | succ k =>
      have := ih (Memory.wf_write hm a (v.setWidth 8)) (a + 1) (v >>> 8) (k := k) (by omega) (by omega)
      rw [addr_succ] at this
      rw [this, ← BitVec.shiftRight_add, Nat.mul_succ, Nat.add_comm 8]

/-- The bytes of a store, as bytes of the value. -/
theorem State.byteAt_storeBytes {s : State} (hm : s.mem.wf = true) (a v : Word) {n k : Nat} (hn : n ≤ 4) (hk : k < n) :
    (s.storeBytes a n v).byteAt (a + BitVec.ofNat 32 k) = (v >>> (8 * k)).setWidth 8 :=
  Memory.read_writeLE hm a v hn hk

end Sys2Proof.Machine
end

