-- ==== Sys2Proof/Laws/PerInstr.lean ====
section
/-! SUPPORT. The family `Encoding` of per-instruction lemmas: the opcode byte of every instruction's word is the one
30_encoding.md R110 gives it. -/

namespace Sys2Proof.Laws.Encoding

/-- The opcode of R110; of a unit function, the opcode of the CPIx that issues it. -/
def opcode : Instr → BitVec 8
  | .und00 .. => 0x00
  | .undFF .. => 0xFF
  | .pause .. => 0x01
  | .mov .. => 0x02
  | .st .. => 0x03
  | .ld .. => 0x04
  | .lra .. => 0x06
  | .addi .. => 0x08
  | .add .. => 0x09
  | .sub .. => 0x0A
  | .and .. => 0x0B
  | .or .. => 0x0C
  | .xor .. => 0x0D
  | .bsl .. => 0x0E
  | .bsr .. => 0x0F
  | .jmp .. => 0x10
  | .jmpr .. => 0x11
  | .inp .. => 0x14
  | .out .. => 0x15
  | .ldflags .. => 0x18
  | .stflags .. => 0x19
  | .cpi0 .. => 0x20
  | .cpi1 .. => 0x21
  | .cpi2 .. => 0x22
  | .cpi3 .. => 0x23
  | .cpi4 .. => 0x24
  | .cpi5 .. => 0x25
  | .cpi6 .. => 0x26
  | .cpi7 .. => 0x27
  | .ncpi0 .. => 0x28
  | .ncpi1 .. => 0x29
  | .ncpi2 .. => 0x2A
  | .ncpi3 .. => 0x2B
  | .ncpi4 .. => 0x2C
  | .ncpi5 .. => 0x2D
  | .ncpi6 .. => 0x2E
  | .ncpi7 .. => 0x2F
  | .cpi0ef .. => 0x30
  | .cpi1ef .. => 0x31
  | .cpi2ef .. => 0x32
  | .cpi3ef .. => 0x33
  | .cpi4ef .. => 0x34
  | .cpi5ef .. => 0x35
  | .cpi6ef .. => 0x36
  | .cpi7ef .. => 0x37
  | .ncpi0ef .. => 0x38
  | .ncpi1ef .. => 0x39
  | .ncpi2ef .. => 0x3A
  | .ncpi3ef .. => 0x3B
  | .ncpi4ef .. => 0x3C
  | .ncpi5ef .. => 0x3D
  | .ncpi6ef .. => 0x3E
  | .ncpi7ef .. => 0x3F
  | .halt => 0x40
  | .stop => 0x41
  | .fpause n .. => 0b00100#5 ++ n
  | .fpmov n .. => 0b00100#5 ++ n
  | .cvtf2f n .. => 0b00100#5 ++ n
  | .cvti2f n .. => 0b00100#5 ++ n
  | .cvtf2i n .. => 0b00100#5 ++ n
  | .fadd n .. => 0b00100#5 ++ n
  | .fsub n .. => 0b00100#5 ++ n
  | .fmul n .. => 0b00100#5 ++ n
  | .ffma n .. => 0b00100#5 ++ n

/-- The word of the instruction carries its opcode in bits 7:0 (R101). -/
def Statement (i : Instr) : Prop := (encode i).extractLsb' 0 8 = opcode i

/-- The low byte of a word whose lowest field is a byte. -/
theorem lowByte {w : Nat} (a : BitVec w) (b : BitVec 8) : (a ++ b).extractLsb' 0 8 = b := by
  apply BitVec.eq_of_getLsbD_eq
  intro i hi
  simp [BitVec.getLsbD_append, hi]

theorem und00 (payload : BitVec 24) : Statement (.und00 payload) := lowByte _ _

theorem undFF (payload : BitVec 24) : Statement (.undFF payload) := lowByte _ _

theorem pause (k : BitVec 6) : Statement (.pause k) := lowByte _ _

theorem mov (d s : BitVec 5) (l : Bool) (c : Cond) (r : Bool) (m : BitVec 4) : Statement (.mov d s l c r m) := lowByte _ _

theorem st (d s : BitVec 5) (w : BitVec 2) (p : Bool) : Statement (.st d s w p) := lowByte _ _

theorem ld (d s : BitVec 5) (w : BitVec 2) (p : Bool) : Statement (.ld d s w p) := lowByte _ _

theorem lra (d : BitVec 5) (x : Bool) (o : BitVec 16) : Statement (.lra d x o) := lowByte _ _

theorem addi (d : BitVec 5) (h c s : Bool) (i : BitVec 16) : Statement (.addi d h c s i) := lowByte _ _

theorem add (d a b : BitVec 5) (c : Bool) (s : BitVec 5) (p : Bool) : Statement (.add d a b c s p) := lowByte _ _

theorem sub (d a b : BitVec 5) (c : Bool) (s : BitVec 5) (p : Bool) : Statement (.sub d a b c s p) := lowByte _ _

theorem and (d a b : BitVec 5) (c : Bool) (s : BitVec 5) (p : Bool) : Statement (.and d a b c s p) := lowByte _ _

theorem or (d a b : BitVec 5) (c : Bool) (s : BitVec 5) (p : Bool) : Statement (.or d a b c s p) := lowByte _ _

theorem xor (d a b : BitVec 5) (c : Bool) (s : BitVec 5) (p : Bool) : Statement (.xor d a b c s p) := lowByte _ _

theorem bsl (d v q : BitVec 5) (c x w : Bool) (r : BitVec 5) : Statement (.bsl d v q c x w r) := lowByte _ _

theorem bsr (d v q : BitVec 5) (c x w : Bool) (r : BitVec 5) : Statement (.bsr d v q c x w r) := lowByte _ _

theorem jmp (c : Cond) (l : BitVec 5) (o : BitVec 15) : Statement (.jmp c l o) := lowByte _ _

theorem jmpr (c : Cond) (l r : BitVec 5) : Statement (.jmpr c l r) := lowByte _ _

theorem inp (d : BitVec 5) (p : BitVec 8) (w : BitVec 5) : Statement (.inp d p w) := lowByte _ _

theorem out (s : BitVec 5) (p : BitVec 8) (w : BitVec 5) : Statement (.out s p w) := lowByte _ _

theorem ldflags (d : BitVec 5) : Statement (.ldflags d) := lowByte _ _

theorem stflags (s : BitVec 5) : Statement (.stflags s) := lowByte _ _

theorem cpi0 (f : BitVec 4) (p : BitVec 20) : Statement (.cpi0 f p) := lowByte _ _

theorem cpi1 (f : BitVec 4) (p : BitVec 20) : Statement (.cpi1 f p) := lowByte _ _

theorem cpi2 (f : BitVec 4) (p : BitVec 20) : Statement (.cpi2 f p) := lowByte _ _

theorem cpi3 (f : BitVec 4) (p : BitVec 20) : Statement (.cpi3 f p) := lowByte _ _

theorem cpi4 (f : BitVec 4) (p : BitVec 20) : Statement (.cpi4 f p) := lowByte _ _

theorem cpi5 (f : BitVec 4) (p : BitVec 20) : Statement (.cpi5 f p) := lowByte _ _

theorem cpi6 (f : BitVec 4) (p : BitVec 20) : Statement (.cpi6 f p) := lowByte _ _

theorem cpi7 (f : BitVec 4) (p : BitVec 20) : Statement (.cpi7 f p) := lowByte _ _

theorem ncpi0 (f : BitVec 4) (p : BitVec 20) : Statement (.ncpi0 f p) := lowByte _ _

theorem ncpi1 (f : BitVec 4) (p : BitVec 20) : Statement (.ncpi1 f p) := lowByte _ _

theorem ncpi2 (f : BitVec 4) (p : BitVec 20) : Statement (.ncpi2 f p) := lowByte _ _

theorem ncpi3 (f : BitVec 4) (p : BitVec 20) : Statement (.ncpi3 f p) := lowByte _ _

theorem ncpi4 (f : BitVec 4) (p : BitVec 20) : Statement (.ncpi4 f p) := lowByte _ _

theorem ncpi5 (f : BitVec 4) (p : BitVec 20) : Statement (.ncpi5 f p) := lowByte _ _

theorem ncpi6 (f : BitVec 4) (p : BitVec 20) : Statement (.ncpi6 f p) := lowByte _ _

theorem ncpi7 (f : BitVec 4) (p : BitVec 20) : Statement (.ncpi7 f p) := lowByte _ _

theorem cpi0ef (f : BitVec 6) (p : BitVec 18) : Statement (.cpi0ef f p) := lowByte _ _

theorem cpi1ef (f : BitVec 6) (p : BitVec 18) : Statement (.cpi1ef f p) := lowByte _ _

theorem cpi2ef (f : BitVec 6) (p : BitVec 18) : Statement (.cpi2ef f p) := lowByte _ _

theorem cpi3ef (f : BitVec 6) (p : BitVec 18) : Statement (.cpi3ef f p) := lowByte _ _

theorem cpi4ef (f : BitVec 6) (p : BitVec 18) : Statement (.cpi4ef f p) := lowByte _ _

theorem cpi5ef (f : BitVec 6) (p : BitVec 18) : Statement (.cpi5ef f p) := lowByte _ _

theorem cpi6ef (f : BitVec 6) (p : BitVec 18) : Statement (.cpi6ef f p) := lowByte _ _

theorem cpi7ef (f : BitVec 6) (p : BitVec 18) : Statement (.cpi7ef f p) := lowByte _ _

theorem ncpi0ef (f : BitVec 6) (p : BitVec 18) : Statement (.ncpi0ef f p) := lowByte _ _

theorem ncpi1ef (f : BitVec 6) (p : BitVec 18) : Statement (.ncpi1ef f p) := lowByte _ _

theorem ncpi2ef (f : BitVec 6) (p : BitVec 18) : Statement (.ncpi2ef f p) := lowByte _ _

theorem ncpi3ef (f : BitVec 6) (p : BitVec 18) : Statement (.ncpi3ef f p) := lowByte _ _

theorem ncpi4ef (f : BitVec 6) (p : BitVec 18) : Statement (.ncpi4ef f p) := lowByte _ _

theorem ncpi5ef (f : BitVec 6) (p : BitVec 18) : Statement (.ncpi5ef f p) := lowByte _ _

theorem ncpi6ef (f : BitVec 6) (p : BitVec 18) : Statement (.ncpi6ef f p) := lowByte _ _

theorem ncpi7ef (f : BitVec 6) (p : BitVec 18) : Statement (.ncpi7ef f p) := lowByte _ _

theorem halt : Statement .halt := rfl

theorem stop : Statement .stop := rfl

theorem fpause (n : BitVec 3) (k : BitVec 4) : Statement (.fpause n k) := lowByte _ _

theorem fpmov (n : BitVec 3) (s d : BitVec 5) (c : Cond) : Statement (.fpmov n s d c) := lowByte _ _

theorem cvtf2f (n : BitVec 3) (s d : BitVec 4) (f k : FloatFormat) (y : Bool) (r : RoundMode) : Statement (.cvtf2f n s d f k y r) := lowByte _ _

theorem cvti2f (n : BitVec 3) (s : BitVec 3) (d : BitVec 4) (i : Bool) (k : FloatFormat) (y : Bool) (r : RoundMode) : Statement (.cvti2f n s d i k y r) := lowByte _ _

theorem cvtf2i (n : BitVec 3) (s : BitVec 4) (d : BitVec 3) (f : FloatFormat) (i : Bool) (y : Bool) (r : RoundMode) : Statement (.cvtf2i n s d f i y r) := lowByte _ _

theorem fadd (n : BitVec 3) (d a b : BitVec 4) (y : Bool) (r : RoundMode) : Statement (.fadd n d a b y r) := lowByte _ _

theorem fsub (n : BitVec 3) (d a b : BitVec 4) (y : Bool) (r : RoundMode) : Statement (.fsub n d a b y r) := lowByte _ _

theorem fmul (n : BitVec 3) (d a b : BitVec 4) (y : Bool) (r : RoundMode) : Statement (.fmul n d a b y r) := lowByte _ _

theorem ffma (n : BitVec 3) (d a b c : BitVec 4) (y : Bool) (r : RoundMode) : Statement (.ffma n d a b c y r) := lowByte _ _

end Sys2Proof.Laws.Encoding
end

