-- ==== Sys2Proof/Laws/Results.lean ====
section
/-! SUPPORT. Results and flags of the arithmetic, and the bits IN and OUT move, in terms of integers. -/

namespace Sys2Proof.Machine

/-- The sum and its flags (R189). -/
theorem addFlags_spec (a b : Word) :
    (((addFlags a b).2.getLsbD 0 = true ↔ a + b = 0) ∧ ((addFlags a b).2.getLsbD 1 = true ↔ (a + b).toInt < 0) ∧
      ((addFlags a b).2.getLsbD 2 = true ↔ a.toInt + b.toInt ≠ (a + b).toInt) ∧
      ((addFlags a b).2.getLsbD 3 = true ↔ 2 ^ 32 ≤ a.toNat + b.toNat)) ∧ (addFlags a b).1 = a + b := by
  have e : (addFlags a b).1 = a + b := by
    unfold addFlags; apply BitVec.eq_of_toNat_eq; simp [BitVec.toNat_add]
  have ha := a.isLt
  have hb := b.isLt
  have pk : ∀ z n v c, ((packFlags z n v c).getLsbD 0 = z) ∧ ((packFlags z n v c).getLsbD 1 = n) ∧ ((packFlags z n v c).getLsbD 2 = v) ∧ ((packFlags z n v c).getLsbD 3 = c) := by decide
  have e1 : (addFlags a b).2 = packFlags (a + b == 0) (a + b).msb (a.msb == b.msb && (a + b).msb != a.msb) ((a.setWidth 33 + b.setWidth 33).getLsbD 32) := by
    rw [← e]; rfl
  rw [e1]
  obtain ⟨p0, p1, p2, p3⟩ := pk (a + b == 0) (a + b).msb (a.msb == b.msb && (a + b).msb != a.msb) ((a.setWidth 33 + b.setWidth 33).getLsbD 32)
  rw [p0, p1, p2, p3]
  have hm : ∀ x : Word, x.msb = decide (2 ^ 31 ≤ x.toNat) := fun x => BitVec.msb_eq_decide x
  have ht : ∀ x : Word, x.toInt = if x.toNat < 2 ^ 31 then (x.toNat : Int) else x.toNat - 2 ^ 32 := by
    intro x; rw [BitVec.toInt_eq_toNat_cond]; split <;> split <;> omega
  have hs : (a + b).toNat = (a.toNat + b.toNat) % 2 ^ 32 := BitVec.toNat_add a b
  refine ⟨⟨by simp, ?_, ?_, ?_⟩, e⟩
  · rw [hm, ht, decide_eq_true_eq]; have := (a + b).isLt; split <;> omega
  · simp only [hm, ht, hs]
    rw [Bool.and_eq_true, beq_iff_eq, bne_iff_ne, Ne, decide_eq_decide, decide_eq_decide]
    by_cases h1 : 2 ^ 31 ≤ a.toNat <;> by_cases h2 : 2 ^ 31 ≤ b.toNat <;> by_cases h3 : 2 ^ 31 ≤ (a.toNat + b.toNat) % 2 ^ 32 <;> (repeat' split) <;> simp only [h1, h2, h3] <;> simp <;> omega
  · have : (a.setWidth 33 + b.setWidth 33).getLsbD 32 = decide (2 ^ 32 ≤ a.toNat + b.toNat) := by
      rw [BitVec.getLsbD, BitVec.toNat_add, Nat.testBit_eq_decide_div_mod_eq]
      simp only [BitVec.toNat_setWidth]
      rw [decide_eq_decide]; omega
    rw [this]; simp

/-- The flags of a difference (R189). -/
theorem subFlags_spec (a b : Word) :
    (((subFlags a b).2.getLsbD 0 = true ↔ a - b = 0) ∧ ((subFlags a b).2.getLsbD 1 = true ↔ (a - b).toInt < 0) ∧
      ((subFlags a b).2.getLsbD 2 = true ↔ a.toInt - b.toInt ≠ (a - b).toInt) ∧
      ((subFlags a b).2.getLsbD 3 = true ↔ a.toNat < b.toNat)) := by
  have ha := a.isLt
  have hb := b.isLt
  have pk : ∀ z n v c, ((packFlags z n v c).getLsbD 0 = z) ∧ ((packFlags z n v c).getLsbD 1 = n) ∧ ((packFlags z n v c).getLsbD 2 = v) ∧ ((packFlags z n v c).getLsbD 3 = c) := by decide
  have e1 : (subFlags a b).2 = packFlags (a - b == 0) (a - b).msb (a.msb != b.msb && (a - b).msb != a.msb) (a.ult b) := rfl
  rw [e1]
  obtain ⟨p0, p1, p2, p3⟩ := pk (a - b == 0) (a - b).msb (a.msb != b.msb && (a - b).msb != a.msb) (a.ult b)
  rw [p0, p1, p2, p3]
  have hm : ∀ x : Word, x.msb = decide (2 ^ 31 ≤ x.toNat) := fun x => BitVec.msb_eq_decide x
  have ht : ∀ x : Word, x.toInt = if x.toNat < 2 ^ 31 then (x.toNat : Int) else x.toNat - 2 ^ 32 := by
    intro x; rw [BitVec.toInt_eq_toNat_cond]; split <;> split <;> omega
  have hs : (a - b).toNat = (2 ^ 32 - b.toNat + a.toNat) % 2 ^ 32 := BitVec.toNat_sub a b
  refine ⟨by simp, ?_, ?_, ?_⟩
  · rw [hm, ht, decide_eq_true_eq]; have := (a - b).isLt; split <;> omega
  · simp only [hm, ht, hs]
    rw [Bool.and_eq_true, bne_iff_ne, bne_iff_ne, Ne, Ne, decide_eq_decide, decide_eq_decide]
    by_cases h1 : 2 ^ 31 ≤ a.toNat <;> by_cases h2 : 2 ^ 31 ≤ b.toNat <;> by_cases h3 : 2 ^ 31 ≤ (2 ^ 32 - b.toNat + a.toNat) % 2 ^ 32 <;> (repeat' split) <;> simp only [h1, h2, h3] <;> simp <;> omega
  · simp [BitVec.ult]

/-- The flags of a logic operation (R189). -/
theorem logicFlags_spec (f : BitVec 4) (r : Word) :
    ((logicFlags f r).getLsbD 0 = true ↔ r = (0 : Word)) ∧ ((logicFlags f r).getLsbD 1 = true ↔ r.toInt < 0) ∧
          (logicFlags f r).getLsbD 2 = f.getLsbD 2 ∧ (logicFlags f r).getLsbD 3 = f.getLsbD 3 := by
  have pk : ∀ z n v c, ((packFlags z n v c).getLsbD 0 = z) ∧ ((packFlags z n v c).getLsbD 1 = n) ∧ ((packFlags z n v c).getLsbD 2 = v) ∧ ((packFlags z n v c).getLsbD 3 = c) := by decide
  unfold logicFlags
  obtain ⟨p0, p1, p2, p3⟩ := pk (r == 0) r.msb (flagV f) (flagC f)
  rw [p0, p1, p2, p3]
  refine ⟨by simp, ?_, rfl, rfl⟩
  rw [BitVec.msb_eq_toInt]; simp

/-- A shifted source as a product. -/
theorem shiftLeft_eq (a : Word) (k : BitVec 5) : a <<< k.toNat = BitVec.ofNat 32 (a.toNat * 2 ^ k.toNat) := by
  apply BitVec.eq_of_toNat_eq
  rw [BitVec.toNat_shiftLeft, BitVec.toNat_ofNat, Nat.shiftLeft_eq]

/-- The two sources of the ALU group (R188). -/
theorem State.aluSources_eq (s : State) (i j k : BitVec 5) (p : Bool) : s.aluSources i j k p =
    (if p then BitVec.ofNat 32 ((s.reg i).toNat * 2 ^ k.toNat) else s.reg i,
     if p then s.reg j else BitVec.ofNat 32 ((s.reg j).toNat * 2 ^ k.toNat)) := by
  unfold State.aluSources; cases p <;> simp [shiftLeft_eq]

/-- Writing a result stays inside the core's frame. -/
theorem State.writeResult_frame (s : State) (d c) (res : Word × BitVec 4) : s.SameBeyondCore ((s.setReg d res.1).setFlagsUnless c res.2).advance :=
  ((s.sameBeyondCore_setReg d _).trans (State.sameBeyondCore_setFlagsUnless _ c _)).trans (State.sameBeyondCore_advance _)

/-- The registers after a result is written. -/
theorem State.writeResult_reg (s : State) (d c) (res : Word × BitVec 4) (q : BitVec 5) : (((s.setReg d res.1).setFlagsUnless c res.2).advance).reg q =
    if q = d ∧ d ≠ 0 then res.1 else s.reg q := by simp [State.reg_setReg]

/-- The low bits of a word as a remainder. -/
theorem lowBits_toNat (v : Word) (n : Nat) (hn : n ≤ 32) : (lowBits v n).toNat = v.toNat % 2 ^ n := by
  unfold lowBits
  rw [BitVec.toNat_and, BitVec.toNat_ofNat, Nat.mod_eq_of_lt, Nat.and_two_pow_sub_one_eq_mod]
  have : 2 ^ n ≤ 2 ^ 32 := Nat.pow_le_pow_right (by decide) hn
  have := Nat.two_pow_pos n
  omega

/-- The bit count of IN and OUT lies between 1 and 32 (R221). -/
theorem bitCount_spec (w : BitVec 5) : bitCount w = (if w = 0 then 32 else w.toNat) ∧ bitCount w ≤ 32 ∧ 1 ≤ bitCount w := by
  refine ⟨rfl, ?_⟩; revert w; decide

/-- The transfer register after an IN, bit by bit (R223). -/
theorem shiftIn_getLsbD (old v : Word) (n : Nat) (h1 : 1 ≤ n) (hn : n ≤ 32) (hv : v.toNat < 2 ^ n) : ∀ k < 32, (shiftIn old v n).getLsbD k =
        if k < 32 - n then old.getLsbD (k + n) else v.getLsbD (k - (32 - n)) := by
  intro k hk
  unfold shiftIn
  simp only [BitVec.getLsbD_or, BitVec.getLsbD_shiftLeft, BitVec.getLsbD_ushiftRight, hk]
  split
  · rename_i h; simp [h, Nat.add_comm]
  · rename_i h
    have : old.getLsbD (n + k) = false := BitVec.getLsbD_of_ge _ _ (by omega)
    simp [h, this]

end Sys2Proof.Machine
end

