-- ==== Sys2Proof/WellFormed.lean ====
section
/-! DEFINITION. Which instructions the encoding rules allow whatever the state (30_encoding.md R114). An ill-formed CPU
instruction still decodes, and its meaning raises EX[2]. An ill-formed unit function names a register the spec does not
describe (47_fpu_unit.md R272). -/

namespace Sys2Proof

/-- The register numbers the maps 1 to 15 may define, for a read (`w = false`) or a write (`w = true`), as far as it does
not depend on which coprocessors are there and enabled (10_state.md R62, R63). -/
def mapRegisterPossible (m : BitVec 4) (n : BitVec 5) (w : Bool) : Bool :=
  match m.toNat with
  | 0 => true
  | 1 => n == 0 || n == 2 || n == 31
  | 2 => true
  | 3 => !w
  | 4 => decide (n.toNat < 8) || n == 30 || (n == 31 && !w)
  | 5 => false
  | 6 => false
  | 7 => false
  | _ => true

/-- No static rule makes the instruction illegal: ST and LD name a base register other than r0 and a size of at most 4
(R160 to R162), MOV names a register its map may define (R144), FPMOV names two described registers (R283). -/
def Instr.wellFormed : Instr → Bool
  | .st d _ w _ => d != 0 && w != 3
  | .ld _ s w _ => s != 0 && w != 3
  | .mov d s _ _ r m => mapRegisterPossible m (if r then d else s) r
  | .fpmov _ s d _ => decide (s.toNat < 26) && decide (d.toNat < 26)
  | .und00 _ | .undFF _ | .pause _ | .lra .. | .addi .. | .add .. | .sub .. | .and ..
  | .or .. | .xor .. | .bsl .. | .bsr .. | .jmp .. | .jmpr .. | .inp .. | .out .. | .ldflags _ | .stflags _
  | .cpi0 .. | .cpi1 .. | .cpi2 .. | .cpi3 .. | .cpi4 .. | .cpi5 .. | .cpi6 .. | .cpi7 ..
  | .ncpi0 .. | .ncpi1 .. | .ncpi2 .. | .ncpi3 .. | .ncpi4 .. | .ncpi5 .. | .ncpi6 .. | .ncpi7 ..
  | .cpi0ef .. | .cpi1ef .. | .cpi2ef .. | .cpi3ef .. | .cpi4ef .. | .cpi5ef .. | .cpi6ef .. | .cpi7ef ..
  | .ncpi0ef .. | .ncpi1ef .. | .ncpi2ef .. | .ncpi3ef .. | .ncpi4ef .. | .ncpi5ef .. | .ncpi6ef .. | .ncpi7ef ..
  | .halt | .stop
  | .fpause .. | .cvtf2f .. | .cvti2f .. | .cvtf2i .. | .fadd .. | .fsub .. | .fmul .. | .ffma .. => true

end Sys2Proof
end

