-- ==== Sys2Proof/Tests/Slice0.lean ====
section
/-! SUPPORT. This model's own tests: the WellFormed checks, words written out from the spec's encodings, one step of each
instruction against the vectors of 95_test_vectors.md, and a state that meets the hypotheses of each statement. -/

namespace Sys2Proof.Tests

open Sys2Proof.Machine

/-! ### WellFormed: an ill-formed term for each check -/

/-- R161: ST with base register 0. -/
theorem test_wf_st_base : (Instr.st 0 1 2 false).wellFormed = false := by decide

/-- R161: ST with size code 3. -/
theorem test_wf_st_size : (Instr.st 2 1 3 false).wellFormed = false := by decide

/-- R162: LD with base register 0. -/
theorem test_wf_ld_base : (Instr.ld 1 0 2 false).wellFormed = false := by decide

/-- R162: LD with size code 3. -/
theorem test_wf_ld_size : (Instr.ld 1 2 3 true).wellFormed = false := by decide

/-- R36, R144: MOV of a Map 1 register that is not defined. -/
theorem test_wf_mov_map1 : (Instr.mov 1 1 false .never false 1).wellFormed = false := by decide

/-- R44, R63: MOV into Map 3. -/
theorem test_wf_mov_map3 : (Instr.mov 0 1 false .always true 3).wellFormed = false := by decide

/-- R48: MOV into `coppresent`; R50: MOV of Map 5. -/
theorem test_wf_mov_map45 : (Instr.mov 31 1 false .always true 4).wellFormed = false ∧
    (Instr.mov 1 0 false .always false 5).wellFormed = false := by decide

/-- R272, R283: FPMOV of a register the spec does not describe. -/
theorem test_wf_fpmov : (Instr.fpmov 0 26 1 .always).wellFormed = false ∧
    (Instr.fpmov 0 1 31 .always).wellFormed = false := by decide

/-- The well-formed neighbours of the terms above. -/
theorem test_wf_accepts : ((Instr.st 2 1 2 false).wellFormed && (Instr.ld 1 2 0 true).wellFormed &&
    (Instr.mov 1 0 false .never false 1).wellFormed && (Instr.mov 1 31 false .always false 4).wellFormed &&
    (Instr.fpmov 0 25 23 .always).wellFormed) = true := by decide

/-! ### Decoding: words written out from the encoding rules (R102, R110; the vectors of 95_test_vectors.md) -/

/-- UND (R141), PAUSE (R142), HALT (R261), STOP (R262). -/
theorem test_decode_system :
    decode 0x12345600 = .ok (.und00 0x123456) ∧ decode 0xABCDEFFF = .ok (.undFF 0xABCDEF) ∧
    decode 0x00003F01 = .ok (.pause 63) ∧ decode 0x00000040 = .ok .halt ∧ decode 0x00000041 = .ok .stop := by decide

/-- MOV (R144): MOV r3, r7; MOVL r3, r7; MOVZ r3, r7; MOV sysctl, r1; MOV r1, Map 5 register 0. -/
theorem test_decode_mov :
    decode 0x01E0E302 = .ok (.mov 3 7 false .always false 0) ∧ decode 0x01F0E302 = .ok (.mov 3 7 true .always false 0) ∧
    decode 0x0040E302 = .ok (.mov 3 7 false .zero false 0) ∧ decode 0x07E02002 = .ok (.mov 0 1 false .always true 1) ∧
    decode 0x15E00102 = .ok (.mov 1 0 false .always false 5) := by decide

/-- ST, LD, LRA (R161 to R163): ST half [r2], r1; PUSH half r30, r1; POP byte r1, r2; LRA r5, -4; LRA r5, 0xFFFC unsigned. -/
theorem test_decode_memory :
    decode 0x00042203 = .ok (.st 2 1 1 false) ∧ decode 0x80043E03 = .ok (.st 30 1 1 true) ∧
    decode 0x80004104 = .ok (.ld 1 2 0 true) ∧ decode 0xFFFC2506 = .ok (.lra 5 true 0xFFFC) ∧
    decode 0xFFFC0506 = .ok (.lra 5 false 0xFFFC) := by decide

/-- ADDI, ADD, SUB, AND, OR, XOR (R180 to R185). -/
theorem test_decode_alu :
    decode 0x8000A208 = .ok (.addi 2 true false true 0x8000) ∧ decode 0x24082309 = .ok (.add 3 1 2 false 4 true) ∧
    decode 0x0108230A = .ok (.sub 3 1 2 false 1 false) ∧ decode 0x0008230B = .ok (.and 3 1 2 false 0 false) ∧
    decode 0x0008230C = .ok (.or 3 1 2 false 0 false) ∧ decode 0x0088230D = .ok (.xor 3 1 2 true 0 false) := by decide

/-- BSL and BSR (R186, R187), format F-BS: d = 3, v = 1, q = 2, then c, x, w in turn, r = 17. -/
theorem test_decode_butterfly :
    decode 0x8888230E = .ok (.bsl 3 1 2 true false false 17) ∧ decode 0x8908230E = .ok (.bsl 3 1 2 false true false 17) ∧
    decode 0x8C08230F = .ok (.bsr 3 1 2 false false true 17) := by decide

/-- JMP and JMPR (R203, R204): JMPNZ -3; JMP +2 with link r31; JMPR r5 with link r31. -/
theorem test_decode_branch :
    decode 0xFFFA0D10 = .ok (.jmp .notZero 0 0x7FFD) ∧ decode 0x0005FF10 = .ok (.jmp .always 31 2) ∧
    decode 0x000BFF11 = .ok (.jmpr .always 31 5) := by decide

/-- IN, OUT, LDFLAGS, STFLAGS (R223 to R226). -/
theorem test_decode_io :
    decode 0xF8006114 = .ok (.inp 1 3 31) ∧ decode 0x001FE115 = .ok (.out 1 255 0) ∧
    decode 0x00000718 = .ok (.ldflags 7) ∧ decode 0x00000719 = .ok (.stflags 7) := by decide

/-- CPIx and NCPIx (R240, R242, R243): the payload is bits 31:12, the function bits 11:8. -/
theorem test_decode_cpi :
    decode 0x12345120 = .ok (.cpi0 1 0x12345) ∧ decode 0x12345121 = .ok (.cpi1 1 0x12345) ∧
    decode 0x12345122 = .ok (.cpi2 1 0x12345) ∧ decode 0x12345123 = .ok (.cpi3 1 0x12345) ∧
    decode 0x12345124 = .ok (.cpi4 1 0x12345) ∧ decode 0x12345125 = .ok (.cpi5 1 0x12345) ∧
    decode 0x12345126 = .ok (.cpi6 1 0x12345) ∧ decode 0x12345127 = .ok (.cpi7 1 0x12345) ∧
    decode 0x00000F28 = .ok (.ncpi0 15 0) ∧ decode 0x00000F29 = .ok (.ncpi1 15 0) ∧
    decode 0x00000F2A = .ok (.ncpi2 15 0) ∧ decode 0x00000F2B = .ok (.ncpi3 15 0) ∧
    decode 0x00000F2C = .ok (.ncpi4 15 0) ∧ decode 0x00000F2D = .ok (.ncpi5 15 0) ∧
    decode 0x00000F2E = .ok (.ncpi6 15 0) ∧ decode 0x00000F2F = .ok (.ncpi7 15 0) := by decide

/-- CPIxEF and NCPIxEF (R240, R244, R245): the payload is bits 31:14, the function bits 13:8. -/
theorem test_decode_cpief :
    decode 0xAAAAA130 = .ok (.cpi0ef 0x21 0x2AAAA) ∧ decode 0xAAAAA131 = .ok (.cpi1ef 0x21 0x2AAAA) ∧
    decode 0xAAAAA132 = .ok (.cpi2ef 0x21 0x2AAAA) ∧ decode 0xAAAAA133 = .ok (.cpi3ef 0x21 0x2AAAA) ∧
    decode 0xAAAAA134 = .ok (.cpi4ef 0x21 0x2AAAA) ∧ decode 0xAAAAA135 = .ok (.cpi5ef 0x21 0x2AAAA) ∧
    decode 0xAAAAA136 = .ok (.cpi6ef 0x21 0x2AAAA) ∧ decode 0xAAAAA137 = .ok (.cpi7ef 0x21 0x2AAAA) ∧
    decode 0x00007F38 = .ok (.ncpi0ef 0x3F 1) ∧ decode 0x00007F39 = .ok (.ncpi1ef 0x3F 1) ∧
    decode 0x00007F3A = .ok (.ncpi2ef 0x3F 1) ∧ decode 0x00007F3B = .ok (.ncpi3ef 0x3F 1) ∧
    decode 0x00007F3C = .ok (.ncpi4ef 0x3F 1) ∧ decode 0x00007F3D = .ok (.ncpi5ef 0x3F 1) ∧
    decode 0x00007F3E = .ok (.ncpi6ef 0x3F 1) ∧ decode 0x00007F3F = .ok (.ncpi7ef 0x3F 1) := by decide

/-- The nine unit functions (R282 to R291), payloads written out from the strings of the rules: payload bit 0 is the string's
leftmost. -/
theorem test_decode_unit :
    decodeUnit 0x00 0x0000B = .instr (.fpause 11) ∧ decodeUnit 0x01 0x03CE3 = .instr (.fpmov 3 7 .always) ∧
    decodeUnit 0x04 0x00121 = .instr (.cvtf2f 1 2 .fp32 .fp16 false .nearestEven) ∧
    decodeUnit 0x05 0x00510 = .instr (.cvti2f 0 1 true .fp32 false .nearestEven) ∧
    decodeUnit 0x06 0x60532 = .instr (.cvtf2i 2 3 .fp32 true true .towardZero) ∧
    decodeUnit 0x08 0xA0321 = .instr (.fadd 1 2 3 true .towardPositive) ∧
    decodeUnit 0x09 0xE0321 = .instr (.fsub 1 2 3 true .towardNegative) ∧
    decodeUnit 0x0A 0x00321 = .instr (.fmul 1 2 3 false .nearestEven) ∧
    decodeUnit 0x0B 0x24321 = .instr (.ffma 1 2 3 4 true .nearestEven) := by decide

/-- Words that are no instruction (R111, R112): reserved bits of every format, and unassigned opcodes. -/
theorem test_decode_rejects :
    decode 0x00004101 = .error (.reservedBits 0x01) ∧ decode 0x01E4E302 = .error (.reservedBits 0x02) ∧
    decode 0x00100004 = .error (.reservedBits 0x04) ∧ decode 0x00086506 = .error (.reservedBits 0x06) ∧
    decode 0x40082309 = .error (.reservedBits 0x09) ∧ decode 0x0200000E = .error (.reservedBits 0x0E) ∧
    decode 0x007E0F11 = .error (.reservedBits 0x11) ∧ decode 0x08200115 = .error (.reservedBits 0x15) ∧
    decode 0x00002719 = .error (.reservedBits 0x19) ∧ decode 0x00000140 = .error (.reservedBits 0x40) ∧
    decode 0x00000005 = .error (.unassignedOpcode 0x05) ∧ decode 0x00000042 = .error (.unassignedOpcode 0x42) := by decide

/-- Unit instructions that are invalid or have no row (R279; V-FPU 9 to 11). -/
theorem test_decode_unit_rejects :
    decodeUnit 0x00 0x00010 = .invalid ∧ decodeUnit 0x04 0x00221 = .invalid ∧ decodeUnit 0x02 0 = .unlisted := by decide

/-! ### One step of each instruction -/

/-- The start state of 95_test_vectors.md: the table at address 0 sends EX[n] to 0x4000 + 0x10 n, with the entries of NMI, unit 0,
unit 1 and IRQ 40 beside EX[1] to EX[4]. -/
def start : State :=
  { State.reset with
    mem := [(8, 0x11), (9, 0x40), (16, 0x21), (17, 0x40), (24, 0x31), (25, 0x40), (32, 0x41), (33, 0x40),
      (56, 0x71), (57, 0x40), (64, 0x81), (65, 0x40), (72, 0x91), (73, 0x40), (320, 0x81), (321, 0x42)] }

/-- `start` with two registers set. -/
def regs (i : BitVec 5) (v : Word) (j : BitVec 5) (w : Word) : State := (start.setReg i v).setReg j w

/-- `start` with unit 0, an FPU, enabled, and two of its registers set. -/
def fpu (i : BitVec 4) (v : Word) : State :=
  { start with copen := 1 }.setCop 0 { Cop.reset with fp := Cop.reset.fp.set i.toNat v i.isLt }

/-- Unit 0 enabled with the given work queued. -/
def working (q : List UnitWork) : State := { start with copen := 1 }.setCop 0 { Cop.reset with queue := q, opU := true }

/-- Does an outcome give a next state with the property? -/
def nextIs (o : Out) (p : State → Bool) : Bool :=
  match o with
  | .next t => p t
  | .fault _ => false
  | .refused _ => false

/-- Does one step of the word at pc give a next state with the property? -/
def after (w : Nat) (s : State) (p : State → Bool) : Bool := nextIs (step (s.withFetchWord 32 w)) p

/-- Is exception n taken as R350 says, nothing else changed? -/
def takes (w n : Nat) (s : State) : Bool :=
  after w s fun t => decide (t = (s.withFetchWord 32 w).enterException (BitVec.ofNat 32 (0x4000 + 0x10 * n)))

/-- V-MOV 1, 2. -/
theorem test_und : takes 0x12345600 2 start = true ∧ takes 0xABCDEFFF 2 start = true := by decide

/-- V-MOV 3: under t = 1 the exception is RESET. -/
theorem test_und_resets : after 0 { start with sysctl := 0x80000000, inttab := 8 }
    (fun t => t.pc == 0xFF00 && t.sysctl == 0 && t.inttab == 0) = true := by decide

/-- V-MOV 7. -/
theorem test_pause : after 0x00003F01 start (fun t => t.pc == 0xFF04 && t.flags == 0) = true := by decide

/-- V-CPI 6, 7. -/
theorem test_halt_stop : after 0x40 start (fun t => t.pc == 0xFF04 && t.status == .halted) = true ∧
    after 0x41 start (fun t => t.pc == 0xFF04 && t.status == .stopped) = true := by decide

/-- V-MOV 17, 21, 28: system registers and `copen`. -/
theorem test_mov : after 0x07E02002 (regs 1 0x80000001 2 0) (fun t => t.sysctl == 0x80000001 && t.pc == 0xFF04) = true ∧
    after 0x05E3E102 { start with intret := 0x1234 } (fun t => t.reg 1 == 0x1234) = true ∧
    after 0x13E03E02 (regs 1 1 2 0) (fun t => t.copen == 1 && t.enabled 0) = true := by decide

/-- V-MOV 15, 16, 18: register check before the condition, value check after it. -/
theorem test_mov_checks : takes 0x04002102 2 start = true ∧ takes 0x07E02002 4 (regs 1 2 2 0) = true ∧
    after 0x06002002 (regs 1 2 2 0) (fun t => t.pc == 0xFF04 && t.sysctl == 0) = true := by decide

/-- V-MEM 9: a push stores the base from before the decrement. -/
theorem test_st : after 0x800BDE03 (regs 30 0x1010 1 0) (fun t => t.byteAt 0x100C == 0x10 && t.byteAt 0x100D == 0x10 &&
    t.reg 30 == 0x100C) = true := by decide

/-- V-MEM 1, 2, 4. -/
theorem test_st_traps : takes 0x00082003 2 start = true ∧ takes 0x000C2203 2 start = true ∧
    takes 0x00082203 1 (regs 2 0x1002 1 0) = true := by decide

/-- V-MEM 18: of a pop into its own base register the loaded value stays. -/
theorem test_ld : after 0x80084204 ((regs 2 0x1000 1 0).storeBytes 0x1000 4 0x1234FF80)
    (fun t => t.reg 2 == 0x1234FF80) = true := by decide

/-- V-MEM 15, 17: little-endian and zero-extending; misaligned. -/
theorem test_ld_half : after 0x00044104 ((regs 2 0x1000 1 0).storeBytes 0x1000 4 0x1234FF80)
    (fun t => t.reg 1 == 0xFF80) = true ∧ takes 0x00044104 1 (regs 2 0x1001 1 0) = true := by decide

/-- V-MEM 22, 23. -/
theorem test_lra : after 0xFFFC2506 start (fun t => t.reg 5 == 0xFF00) = true ∧
    after 0xFFFC0506 start (fun t => t.reg 5 == 0x1FF00) = true := by decide

/-- V-ALU 5: the high immediate is not sign-extended. -/
theorem test_addi : after 0x8000A208 (regs 2 0x80000000 1 0) (fun t => t.reg 2 == 0 && t.flags == 0xD) = true := by decide

/-- V-ALU 12, 11: which source p shifts. -/
theorem test_add : after 0x24082309 (regs 1 0x10000001 2 2) (fun t => t.reg 3 == 0x12 && t.flags == 0) = true ∧
    after 0x1F082309 (regs 1 0x80000000 2 3) (fun t => t.reg 3 == 0 && t.flags == 0xD) = true := by decide

/-- V-ALU 21, 23. -/
theorem test_sub : after 0x0008230A (regs 1 0x7FFFFFFF 2 0xFFFFFFFF)
      (fun t => t.reg 3 == 0x80000000 && t.flags == 0xE) = true ∧
    after 0x0108230A (regs 1 4 2 3) (fun t => t.reg 3 == 0xFFFFFFFE && t.flags == 0xA) = true := by decide

/-- V-ALU 25 to 28: C and V are kept. -/
theorem test_logic : after 0x0008230B { regs 1 0xF0F0F0F0 2 0x0F0F0F0F with flags := 0xC }
      (fun t => t.reg 3 == 0 && t.flags == 0xD) = true ∧
    after 0x0008230C { regs 1 0x80000000 2 1 with flags := 0x5 } (fun t => t.reg 3 == 0x80000001 && t.flags == 6) = true ∧
    after 0x000C630D { regs 3 7 2 1 with flags := 0xA } (fun t => t.reg 3 == 0 && t.flags == 9) = true ∧
    after 0x0088230D { regs 1 0xFF 2 0xF with flags := 0xA } (fun t => t.reg 3 == 0xF0 && t.flags == 0xA) = true := by
  decide

/-- V-ALU 30, V-FPU 8: the spec asks a model to refuse these (R186, R187, R288 to R291). -/
theorem test_lost : exec (.bsl 3 1 2 true false false 17) start = .refused (.butterflyShiftLost "BSL") ∧
    exec (.bsr 3 1 2 false false true 17) start = .refused (.butterflyShiftLost "BSR") ∧
    exec (.fadd 0 1 2 3 true .nearestEven) start = .refused (.fpuArithmeticLost "FADD") ∧
    exec (.fsub 0 1 2 3 true .nearestEven) start = .refused (.fpuArithmeticLost "FSUB") ∧
    exec (.fmul 0 1 2 3 true .nearestEven) start = .refused (.fpuArithmeticLost "FMUL") ∧
    exec (.ffma 0 1 2 3 4 true .nearestEven) start = .refused (.fpuArithmeticLost "FFMA") :=
  ⟨rfl, rfl, rfl, rfl, rfl, rfl⟩

/-- V-JMP 3, 4: the link is written only when the jump is taken. -/
theorem test_jmp : after 0x0005FF10 { start with pc := 0xFF08 } (fun t => t.reg 31 == 0xFF0C && t.pc == 0xFF14) = true ∧
    after 0x0005F010 (regs 31 9 1 0) (fun t => t.reg 31 == 9 && t.pc == 0xFF04) = true := by decide

/-- V-JMP 12, 13: alignment before the condition; the target is read before the link is written. -/
theorem test_jmpr : takes 0x003E0011 3 (regs 31 0xFF0D 1 0) = true ∧
    after 0x003FFF11 (regs 31 0x8000 1 0) (fun t => t.reg 31 == 0xFF04 && t.pc == 0x8000) = true := by decide

/-- V-IO 1, 4. -/
theorem test_in : after 0x40006114 { start.setIoReg 1 0xAABBCCDD with portAnswers := [0x5A] }
      (fun t => t.ioReg 1 == 0x5AAABBCC && t.ioTrace == [.input 3 8 0x5A]) = true ∧
    after 0xF8006114 { start.setIoReg 1 0xFFFFFFFF with portAnswers := [0] } (fun t => t.ioReg 1 == 1) = true := by decide

/-- V-IO 5, 6. -/
theorem test_out : after 0x40006115 (start.setIoReg 1 0x12345678)
      (fun t => t.ioReg 1 == 0x123456 && t.ioTrace == [.output 3 8 0x78]) = true ∧
    after 0x001FE115 (start.setIoReg 1 0x12345678)
      (fun t => t.ioReg 1 == 0 && t.ioTrace == [.output 255 32 0x12345678]) = true := by decide

/-- V-IO 9, 11. -/
theorem test_flag_moves : after 0x00000718 { start with flags := 0xA } (fun t => t.reg 7 == 0xA && t.flags == 0xA) = true ∧
    after 0x00000719 (regs 7 0xFFFFFFF5 1 0) (fun t => t.flags == 5) = true := by decide

/-- V-CPI 1 to 4: a unit that is not enabled. -/
theorem test_cpi_disabled : takes 0x12345120 2 start = true ∧ takes 0x00000F2F 2 { start with copen := 1 } = true ∧
    takes 0xAAAAA132 2 start = true ∧ takes 0x00007F3B 2 start = true := by decide

/-- V-CPI 5; and NCPI0 leaves the work queued (R243). -/
theorem test_cpi : after 0x00000020 (fpu 0 0) (fun t => t.pc == 0xFF04 && (t.cop 0).opU && !t.busy 0) = true ∧
    after 0x00000028 (fpu 0 0) (fun t => t.pc == 0xFF04 && (t.cop 0).opU && t.busy 0) = true := by decide

/-- V-FPU 1 to 3. -/
theorem test_fpmov : after 0x03CE3120 (fpu 3 0x40490FDB) (fun t => (t.cop 0).fpReg 7 == 0x40490FDB) = true ∧
    after 0x000E3120 (fpu 3 0x40490FDB) (fun t => (t.cop 0).fpReg 7 == 0) = true := by decide

/-- V-FPU 5, 6. -/
theorem test_cvti2f : after 0x00510520 (fpu 0 0xFFFFFFFF)
      (fun t => (t.cop 0).fpReg 1 == 0xBF800000 && (t.cop 0).csr == 0) = true ∧
    after 0x00410520 (fpu 0 0xFFFFFFFF) (fun t => (t.cop 0).fpReg 1 == 0x4F800000 && (t.cop 0).csr == 0x80) = true := by
  decide

/-- V-FPU 7. -/
theorem test_cvtf2i : after 0x60532620 (fpu 2 0xC0200000)
    (fun t => (t.cop 0).fpReg 3 == 0xFFFFFFFE && (t.cop 0).csr == 0x80) = true := by decide

/-- V-FPU 4. -/
theorem test_cvtf2f : after 0x00121420 (fpu 1 0x3FC00000)
    (fun t => (t.cop 0).fpReg 2 == 0x3E00 && (t.cop 0).csr == 0) = true := by decide

/-- R275, R277: a queued write of 0 to `fpuop` clears u, but not the u of an instruction issued after it. -/
theorem test_fpuop_u : nextIs (applyEvent (.unitRun 0) (working [.statusWrite 24 0])) (fun t => !(t.cop 0).opU) = true ∧
    nextIs (exec (.cpi0 0 0) (working [.statusWrite 24 0])) (fun t => (t.cop 0).opU && !t.busy 0) = true := by decide

/-- V-FPU 9, 10: Error 2 and nothing else. -/
theorem test_unit_error : after 0x00010020 (fpu 2 7) (fun t => (t.cop 0).opX == 2 && t.pendingUnitError[0]) = true ∧
    after 0x00221420 (fpu 2 7) (fun t => (t.cop 0).opX == 2 && (t.cop 0).fpReg 2 == 7) = true := by decide

/-- I1, I7: an IRQ is taken with its gates open, and does not wake a halted CPU with i = 0. -/
theorem test_irq :
    nextIs (step { start with schedule := [[.irq 8]], sysctl := 1, pc := 0x8004 })
      (fun t => t.pc == 0x4280 && t.intret == 0x8004 && t.sysctl == 1 && !t.pendingIrq[8]) = true ∧
    nextIs (step { start with schedule := [[.irq 1]], status := .halted })
      (fun t => t.pc == 0xFF00 && t.status == .halted && t.pendingIrq[1]) = true := by decide

/-- I5: an NMI is taken under t = 1. -/
theorem test_nmi : nextIs (step { start with schedule := [[.nmi]], sysctl := 0x80000000, pc := 0x3004 })
    (fun t => t.pc == 0x4070 && t.intret == 0x3004 && t.sysctl == 0x80000000) = true := by decide

/-! ### Hypotheses: for each statement that has some, a state and operands that meet them, clause by clause -/

/-- The next state an outcome gives. -/
theorem exists_next {o : Out} {p : State → Bool} (h : nextIs o p = true) : ∃ t, o = .next t ∧ p t = true := by
  unfold nextIs at h
  split at h
  · exact ⟨_, rfl, h⟩
  · cases h
  · cases h

theorem vector1 : start.VectorTo 1 0x4010 := ⟨by decide, by decide, by decide⟩
theorem vector2 : start.VectorTo 2 0x4020 := ⟨by decide, by decide, by decide⟩
theorem vector3 : start.VectorTo 3 0x4030 := ⟨by decide, by decide, by decide⟩
theorem vector4 : start.VectorTo 4 0x4040 := ⟨by decide, by decide, by decide⟩
theorem vector8 : start.VectorTo 8 0x4080 := ⟨by decide, by decide, by decide⟩
theorem vector40 : start.VectorTo 40 0x4280 := ⟨by decide, by decide, by decide⟩

/-- `start` under t = 1. -/
def underT : State := { start with sysctl := 0x80000000 }

/-- `start` with an address space of which nothing exists. -/
def nowhere : State := { start with cfg := { Config.default with memMap := [] } }

/-- `start` with unit 1, an opaque coprocessor with one readable and one writable register, enabled. -/
def withOpaque : State :=
  { start with
    copen := 2
    cfg := { Config.default with copPresent := 3, copKind := Config.default.copKind.set 1 (.other [3] [4]) } }

theorem witness_StepKeepsWellShaped : ∃ t, (start.withFetchWord 32 1).WellShaped ∧ step (start.withFetchWord 32 1) = .next t :=
  let ⟨t, h, _⟩ := exists_next (o := step (start.withFetchWord 32 1)) (p := fun _ => true) (by decide)
  ⟨t, ⟨by decide, by decide, by decide, by decide, by decide, by decide⟩, h⟩

theorem witness_StepKeepsDisabledUnitsIdle :
    ∃ t, (start.withFetchWord 32 1).DisabledUnitsIdle ∧ step (start.withFetchWord 32 1) = .next t :=
  let ⟨t, h, _⟩ := exists_next (o := step (start.withFetchWord 32 1)) (p := fun _ => true) (by decide)
  ⟨t, by unfold State.DisabledUnitsIdle; decide, h⟩

theorem witness_ResetForgetsRegisters : underT.sysT = true ∧
    ({ start with flags := 5 } : State).mem = start.mem ∧ ({ start with flags := 5 } : State).cfg = start.cfg ∧
    ({ start with flags := 5 } : State).fresh = start.fresh := by decide

/-- `start` about to execute PAUSE 63. -/
def pausing : State := start.withFetchWord 32 0x00003F01

theorem witness_StepRunsDecodedInstruction : pausing.status = .running ∧ pausing.Undisturbed ∧
    Config.accessible pausing.cfg .fetch pausing.pc 4 = true ∧ pausing.cfg.ifetchCoherent = true ∧
    decodeBytes [pausing.byteAt pausing.pc, pausing.byteAt (pausing.pc + 1), pausing.byteAt (pausing.pc + 2),
      pausing.byteAt (pausing.pc + 3)] = some (.pause 63, []) :=
  ⟨rfl, ⟨rfl, by decide⟩, by decide, rfl, by decide⟩

theorem witness_StepRejectsBadFetch :
    (nowhere.status = .running ∧ nowhere.Undisturbed ∧ Config.accessible nowhere.cfg .fetch nowhere.pc 4 = false) ∧
    (∀ w ∈ [0x4101, 0x05], (start.withFetchWord 32 w).status = .running ∧ (start.withFetchWord 32 w).Undisturbed ∧
      Config.accessible (start.withFetchWord 32 w).cfg .fetch (start.withFetchWord 32 w).pc 4 = true ∧
      wordOfBytes [(start.withFetchWord 32 w).byteAt 0xFF00, (start.withFetchWord 32 w).byteAt 0xFF01,
        (start.withFetchWord 32 w).byteAt 0xFF02, (start.withFetchWord 32 w).byteAt 0xFF03] = some (BitVec.ofNat 32 w)) ∧
    decode 0x4101 = .error (.reservedBits 0x01) ∧ decode 0x05 = .error (.unassignedOpcode 0x05) := by
  refine ⟨⟨rfl, ⟨rfl, by decide⟩, by decide⟩, ?_, by decide⟩
  unfold State.Undisturbed
  decide

theorem witness_ExceptionEntry : underT.sysT = true ∧ start.sysT = false ∧ start.VectorTo Exc.busFault.number 0x4010 :=
  ⟨by decide, by decide, vector1⟩

/-- `start` with an NMI signalled, under the policy EX[4], its table without entry 7. -/
def nmiInvalid : State :=
  { start with
    pendingNmi := true, mem := start.mem.writeLE 56 0 4, cfg := { Config.default with vectorInvalid := .ex4 } }

/-- The same with the memory of `start`, of which only entry 1 of the table can be read. -/
def nmiUnreadable : State :=
  { start with
    pendingNmi := true
    cfg := { Config.default with vectorInvalid := .ex4, memMap := [{ base := 8, size := 8, allows := [(.read, 4)] }] } }

theorem witness_BadVectorEntry :
    (State.reset.sysT = false ∧ State.reset.InvalidEntry Exc.busFault.number ∧ nowhere.UnreadableEntry Exc.busFault.number ∧
      State.reset.cfg.vectorInvalid = .modelFault ∧ nowhere.cfg.vectorInvalid = .modelFault) ∧
    (nmiInvalid.status ≠ .stopped ∧ nmiInvalid.schedule = [] ∧ nmiInvalid.chooseInterrupt = some 7 ∧
      nmiInvalid.InvalidEntry 7 ∧ nmiInvalid.cfg.vectorInvalid = .ex4 ∧ nmiInvalid.sysT = false ∧
      nmiInvalid.VectorTo 4 0x4040 ∧ ({ nmiInvalid with sysctl := 0x80000000 } : State).chooseInterrupt = some 7) ∧
    (nmiUnreadable.status ≠ .stopped ∧ nmiUnreadable.schedule = [] ∧ nmiUnreadable.chooseInterrupt = some 7 ∧
      nmiUnreadable.UnreadableEntry 7 ∧ nmiUnreadable.cfg.vectorInvalid = .ex4 ∧ nmiUnreadable.sysT = false ∧
      nmiUnreadable.VectorTo 1 0x4010) ∧
    (({ State.reset with pendingNmi := true } : State).chooseInterrupt = some 7 ∧
      ({ State.reset with pendingNmi := true } : State).InvalidEntry 7 ∧
      ({ nowhere with pendingNmi := true } : State).UnreadableEntry 7) :=
  ⟨⟨by decide, ⟨0, 0, by decide, by decide, .inl (by decide)⟩, .inl (by decide), rfl, rfl⟩,
    ⟨by decide, rfl, by decide, ⟨0, 0, by decide, by decide, .inl (by decide)⟩, rfl, by decide,
      ⟨by decide, by decide, by decide⟩, by decide⟩,
    ⟨by decide, rfl, by decide, .inl (by decide), rfl, by decide, ⟨by decide, by decide, by decide⟩⟩,
    by decide, ⟨0, 0, by decide, by decide, .inl (by decide)⟩, .inl (by decide)⟩

/-- `start` with every source pending and both gates open. -/
def allPending : State :=
  { start with
    sysctl := 1, pendingNmi := true, pendingIrq := start.pendingIrq.set 8 true,
    pendingUnitError := start.pendingUnitError.set 0 true }

theorem witness_InterruptEntry : allPending.status ≠ .stopped ∧ allPending.schedule = [] ∧
    allPending.chooseInterrupt = some 7 ∧ allPending.VectorTo 7 0x4070 ∧
    ({ allPending with pendingNmi := false } : State).chooseInterrupt = some 8 ∧
    ({ allPending with intOrder := [40] } : State).chooseInterrupt = some 40 :=
  ⟨by decide, rfl, by decide, ⟨by decide, by decide, by decide⟩, by decide, by decide⟩

theorem witness_InterruptGates : allPending.chooseInterrupt = some 7 ∧ allPending.GateOpen 7 ∧ allPending.GateOpen 8 ∧
    allPending.GateOpen 40 :=
  ⟨by decide, .inl ⟨rfl, rfl⟩, .inr (.inl ⟨0, by decide, by decide, by decide⟩),
    .inr (.inr ⟨8, by decide, by decide, by decide, by decide⟩)⟩

/-- `start` with IRQ 40 arriving and i = 1. -/
def arriving : State := { start with sysctl := 1, schedule := [[.irq 8]] }

theorem witness_ArrivingIrqIsTaken : arriving.status ≠ .stopped ∧ arriving.schedule = [.irq 8] :: [] ∧
    arriving.sysI = true ∧ arriving.sysT = false ∧ arriving.pendingNmi = false ∧
    (∀ u : Fin 8, arriving.pendingUnitError[u] = false) ∧ (∀ r : Fin 32, arriving.pendingIrq[r] = false) ∧
    arriving.VectorTo (32 + (8 : BitVec 5).toNat) 0x4280 :=
  ⟨by decide, rfl, by decide, by decide, rfl, by decide, by decide, vector40⟩

theorem witness_HaltedAndStoppedWait :
    (({ start with status := .halted } : State).schedule = [] ∧
      ∀ v, ¬ ({ start with status := .halted } : State).GateOpen v) ∧
    (¬ ({ start with status := .stopped, schedule := [[.nmi], [.reset]] } : State).ResetArrives ∧
      ∃ t, step { start with status := .stopped, schedule := [[.nmi], [.reset]] } = .next t) := by
  have noError : ∀ u : Fin 8, start.pendingUnitError[u] ≠ true := by decide
  have noIrq : ∀ q : Fin 32, start.pendingIrq[q] ≠ true := by decide
  refine ⟨⟨rfl, ?_⟩, ?_, ?_⟩
  · rintro v (⟨_, h⟩ | ⟨u, _, h, _⟩ | ⟨q, _, h, _⟩)
    · cases h
    · exact noError u h
    · exact noIrq q h
  · rintro ⟨es, later, h, h'⟩
    cases h
    revert h'
    decide
  · obtain ⟨t, h, _⟩ := exists_next (o := step { start with status := .stopped, schedule := [[.nmi], [.reset]] }) (p := fun _ => true)
      (by decide)
    exact ⟨t, h⟩

theorem witness_OnlyMovAndResetClearT : underT.sysT = true ∧ (underT.withFetchWord 32 0x07E02002).sysT = true ∧
    (∃ t, step (underT.withFetchWord 32 0x07E02002) = .next t ∧ t.sysT = false) ∧
    (∃ t, step underT = .next t ∧ t.sysT = false) ∧
    ∃ t, step { underT.withFetchWord 32 1 with schedule := [[.reset]], status := .stopped } = .next t ∧ t.sysT = false := by
  obtain ⟨t, h, h'⟩ := exists_next (o := step (underT.withFetchWord 32 0x07E02002)) (p := fun t => !t.sysT) (by decide)
  obtain ⟨u, k, k'⟩ := exists_next (o := step underT) (p := fun t => !t.sysT) (by decide)
  obtain ⟨v, l, l'⟩ := exists_next (o := step { underT.withFetchWord 32 1 with schedule := [[.reset]], status := .stopped })
    (p := fun t => !t.sysT) (by decide)
  exact ⟨by decide, by decide, ⟨t, h, by simpa using h'⟩, ⟨u, k, by simpa using k'⟩, v, l, by simpa using l'⟩

theorem witness_FlagsWriters : ∃ t, step (start.withFetchWord 32 0x08) = .next t ∧ t.flags ≠ start.flags := by
  obtain ⟨t, h, h'⟩ := exists_next (o := step (start.withFetchWord 32 0x08)) (p := fun t => t.flags == 1) (by decide)
  refine ⟨t, h, ?_⟩
  rw [eq_of_beq h']
  decide

theorem witness_UnitsTouchNothingElse : ∃ t, applyEvent (.unitRun 0) (working [.instr 1 0x03CE3]) = .next t :=
  let ⟨t, h, _⟩ := exists_next (o := applyEvent (.unitRun 0) (working [.instr 1 0x03CE3])) (p := fun _ => true) (by decide)
  ⟨t, h⟩

theorem witness_DecodeEncode : (Instr.xor 3 1 2 true 31 true).toUnit = none := rfl

theorem witness_EncodeDecode : decode 0x0088230D = .ok (.xor 3 1 2 true 0 false) ∧
    decodeUnit 0x01 0x03CE3 = .instr (.fpmov 3 7 .always) := by decide

theorem witness_UndTraps : (0x12345600 : Word).extractLsb' 0 8 = 0x00 ∧ (0xABCDEFFF : Word).extractLsb' 0 8 = 0xFF ∧
    start.sysT = false ∧ start.VectorTo 2 0x4020 ∧ underT.sysT = true :=
  ⟨by decide, by decide, by decide, vector2, by decide⟩

theorem witness_MovReads : Cond.always.holds start.flags = true ∧
    ({ start with copen := 1 } : State).enabled 0 = true ∧ (0 : BitVec 5) = (0 : BitVec 3).setWidth 5 ∧
    (7 : BitVec 5) = (7 : BitVec 3).setWidth 5 := by decide

theorem witness_MovReadsUnits : Cond.always.holds start.flags = true ∧
    ((working []).enabled 0 = true ∧ (working []).kind 0 = .fpu ∧ (25 : BitVec 5).toNat < 26) ∧
    (withOpaque.enabled 1 = true ∧ withOpaque.kind 1 = .other [3] [4] ∧ (3 : BitVec 5) ∈ [(3 : BitVec 5)]) := by decide

theorem witness_MovWritesSystem : Cond.always.holds (regs 1 0x80000001 2 0x2008).flags = true ∧
    ((regs 1 0x80000001 2 0x2008).reg 1).extractLsb' 1 30 = 0 ∧
    ((regs 1 0x80000001 2 0x2008).reg 2).extractLsb' 0 3 = 0 := by decide

theorem witness_MovWritesCopen : Cond.always.holds (regs 1 1 2 0).flags = true ∧
    (∀ i ∈ [(1 : BitVec 5), 2], ((regs 1 1 2 0).reg i).extractLsb' 8 24 = 0 ∧
      ((regs 1 1 2 0).reg i).extractLsb' 0 8 &&& ~~~(regs 1 1 2 0).cfg.copPresent = 0) ∧
    ((regs 1 1 2 0).reg 1).getLsbD 0 = true ∧ (regs 1 1 2 0).copen.getLsbD 0 = false ∧
    ((regs 1 1 2 0).reg 2).getLsbD 0 = false ∧ ({ regs 1 1 2 0 with copen := 1 } : State).copen.getLsbD 0 = true := by decide

theorem witness_MovWritesControlWord : Cond.always.holds start.flags = true ∧
    ((working [.settle]).enabled 0 = true ∧ (working [.settle]).kind 0 = .fpu ∧
      ((working [.settle]).reg 1).extractLsb' 1 31 = 0) ∧
    withOpaque.enabled 1 = true ∧ withOpaque.kind 1 = .other [3] [4] ∧ withOpaque.sysT = false ∧
    withOpaque.VectorTo 4 0x4040 :=
  ⟨by decide, by decide, by decide, by decide, by decide, ⟨by decide, by decide, by decide⟩⟩

theorem witness_MovWritesUnits : Cond.always.holds start.flags = true ∧
    ((working []).enabled 0 = true ∧ (working []).kind 0 = .fpu ∧ (15 : BitVec 5).toNat < 16 ∧ (16 : BitVec 5).toNat = 16 ∧
      (23 : BitVec 5).toNat < 24 ∧ (24 : BitVec 5).toNat = 24 ∧ (25 : BitVec 5).toNat < 26) ∧
    (working [.statusWrite 24 0]).enabled 0 = true ∧
    withOpaque.enabled 1 = true ∧ withOpaque.kind 1 = .other [3] [4] ∧ (4 : BitVec 5) ∈ [(4 : BitVec 5)] ∧
    withOpaque.sysT = false ∧ withOpaque.VectorTo 4 0x4040 :=
  ⟨by decide, by decide, by decide, by decide, by decide, by decide, by decide, ⟨by decide, by decide, by decide⟩⟩

theorem witness_MovSkips : Cond.never.holds start.flags = false ∧ start.ReadableRule 3 31 ∧ start.WritableRule 1 31 :=
  ⟨by decide, .inr (.inr (.inr (.inl rfl))), .inr (.inl ⟨rfl, .inr (.inr rfl)⟩)⟩

theorem witness_MovChecksRegister :
    (¬ start.ReadableRule 5 0 ∧ ¬ start.Undescribed 5 0) ∧ (¬ start.WritableRule 3 0 ∧ ¬ start.Undescribed 3 0) ∧
    start.VectorTo 2 0x4020 ∧ (working []).Undescribed 8 26 ∧ (working []).Undescribed 8 31 := by
  have no5 : ∀ n : BitVec 3, (5 : BitVec 4) ≠ 1#1 ++ n := by decide
  have no3 : ∀ n : BitVec 3, (3 : BitVec 4) ≠ 1#1 ++ n := by decide
  refine ⟨⟨?_, ?_⟩, ⟨?_, ?_⟩, vector2, ⟨0, by decide, by decide, by decide, by decide⟩,
    ⟨0, by decide, by decide, by decide, by decide⟩⟩
  · rintro (h | ⟨h, _⟩ | h | h | ⟨h, _⟩ | ⟨n, h, _⟩)
    all_goals first | exact no5 n h | exact absurd h (by decide)
  · rintro ⟨n, h, _⟩; exact no5 n h
  · rintro (h | ⟨h, _⟩ | h | ⟨h, _⟩ | ⟨n, h, _⟩)
    all_goals first | exact no3 n h | exact absurd h (by decide)
  · rintro ⟨n, h, _⟩; exact no3 n h

theorem witness_MovChecksValue : Cond.always.holds start.flags = true ∧
    ((regs 1 2 2 0x2004).reg 1).extractLsb' 1 30 ≠ 0 ∧ ((regs 1 2 2 0x2004).reg 2).extractLsb' 0 3 ≠ 0 ∧
    ((regs 1 2 2 0x2004).reg 2).extractLsb' 8 24 ≠ 0 ∧ ((regs 1 2 2 0x2004).reg 1).getLsbD 1 = true ∧
    start.cfg.copPresent.getLsbD 1 = false ∧ (working []).enabled 0 = true ∧ (working []).kind 0 = .fpu ∧
    ((working []).setReg 1 2 |>.reg 1).extractLsb' 1 31 ≠ 0 ∧ start.VectorTo 4 0x4040 ∧ underT.sysT = true :=
  ⟨by decide, by decide, by decide, by decide, by decide, by decide, by decide, by decide, by decide, vector4, by decide⟩

theorem witness_StEffect : start.mem.wf = true ∧ ∀ w ∈ [(0 : BitVec 2), 1, 2], ∀ p : Bool,
    ((regs 2 0xFFFFFFFC 1 0).storeAddr 2 w p).toNat % 2 ^ w.toNat = 0 ∧
    Config.accessible (regs 2 0xFFFFFFFC 1 0).cfg .write ((regs 2 0xFFFFFFFC 1 0).storeAddr 2 w p) (2 ^ w.toNat) = true := by
  decide

theorem witness_LdEffect : ∀ w ∈ [(0 : BitVec 2), 1, 2], ((regs 2 0xFFFFFFFC 1 0).reg 2).toNat % 2 ^ w.toNat = 0 ∧
    Config.accessible (regs 2 0xFFFFFFFC 1 0).cfg .read ((regs 2 0xFFFFFFFC 1 0).reg 2) (2 ^ w.toNat) = true := by decide

theorem witness_MemoryTraps : start.sysT = false ∧ start.VectorTo 1 0x4010 ∧ start.VectorTo 2 0x4020 ∧
    ((regs 2 0x1001 1 0).storeAddr 2 1 false).toNat % 2 ≠ 0 ∧ ((regs 2 0x1002 1 0).reg 2).toNat % 4 ≠ 0 ∧
    (∃ s : State, s.sysT = false ∧ s.VectorTo 1 0x4010 ∧ (s.storeAddr 2 2 false).toNat % 4 = 0 ∧
      Config.accessible s.cfg .write (s.storeAddr 2 2 false) 4 = false ∧
      Config.accessible s.cfg .read (s.reg 2) 4 = false) := by
  refine ⟨by decide, vector1, vector2, by decide, by decide,
    { regs 2 0x8000 1 0 with
      cfg := { Config.default with memMap := [{ base := 0, size := 0x8000, allows := [(.read, 4)] }] } }, ?_⟩
  exact ⟨by decide, ⟨by decide, by decide, by decide⟩, by decide, by decide, by decide⟩

theorem witness_PushPopRestores : start.mem.wf = true ∧ ((regs 30 0x1000 1 7).storeAddr 30 2 true).toNat % 4 = 0 ∧
    Config.accessible start.cfg .write ((regs 30 0x1000 1 7).storeAddr 30 2 true) 4 = true ∧
    Config.accessible start.cfg .read ((regs 30 0x1000 1 7).storeAddr 30 2 true) 4 = true := by decide

theorem witness_JmprEffect : ((regs 1 0x8000 2 0x8001).reg 1).toNat % 4 = 0 ∧ ((regs 1 0x8000 2 0x8001).reg 2).toNat % 4 ≠ 0 ∧
    start.sysT = false ∧ start.VectorTo 3 0x4030 ∧ underT.sysT = true :=
  ⟨by decide, by decide, by decide, vector3, by decide⟩

theorem witness_InEffect : ({ start with portAnswers := [0x5A, 1] } : State).portAnswers = 0x5A :: [1] ∧
    start.portAnswers = [] := by decide

theorem witness_FlagMovesEffect : ∃ t u, exec (.ldflags 7) { start with flags := 0xA } = .next t ∧ u.reg 7 = t.reg 7 ∧
    u ≠ t := ⟨_, { start.setReg 7 0xA with flags := 1 }, rfl, by decide, by decide⟩

theorem witness_CpiOpaqueCompletes : withOpaque.enabled 1 = true ∧ withOpaque.kind 1 = .other [3] [4] := by decide

theorem witness_CpiRunsUnitFunction : (working []).enabled 0 = true ∧ (working []).kind 0 = .fpu ∧
    ((working []).cop 0).queue = [] ∧ decodeUnit ((1 : BitVec 4).setWidth 6) 0x03CE3 = .instr (.fpmov 3 7 .always) ∧
    decodeUnit (1 : BitVec 6) ((0x03CE3 : BitVec 18).setWidth 20) = .instr (.fpmov 3 7 .always) := by decide

theorem witness_CpiWaitsForUnit : (working [.settle]).enabled 0 = true ∧
    (∃ t, exec (Instr.cpiOf 0 1 0x03CE3) (working [.settle]) = .next t) ∧
    ∃ t, exec (Instr.cpiefOf 0 1 0x03CE3) (working [.settle]) = .next t := by
  obtain ⟨t, h, _⟩ := exists_next (o := exec (Instr.cpiOf 0 1 0x03CE3) (working [.settle])) (p := fun _ => true) (by decide)
  obtain ⟨u, k, _⟩ := exists_next (o := exec (Instr.cpiefOf 0 1 0x03CE3) (working [.settle])) (p := fun _ => true) (by decide)
  exact ⟨by decide, ⟨t, h⟩, ⟨u, k⟩⟩

theorem witness_NcpiIssues : (working [.settle]).enabled 0 = true ∧ withOpaque.enabled 1 = true := by decide

theorem witness_CpiDisabledTraps : (start.cfg.copPresent.getLsbD 7 = false ∧ start.copen.getLsbD 0 = false) ∧
    Instr.cpi7 0 0 = Instr.cpiOf 7 0 0 ∧ Instr.ncpi7ef 0 0 = Instr.ncpiefOf 7 0 0 ∧ start.sysT = false ∧
    start.VectorTo 2 0x4020 ∧ underT.sysT = true :=
  ⟨by decide, rfl, rfl, by decide, vector2, by decide⟩

theorem witness_InvalidUnitInstructionIsDelivered :
    ((0 : BitVec 6) = (0 : BitVec 4).setWidth 6 ∧ (0x00010 : BitVec 20) = (0x00010 : BitVec 18).setWidth 20) ∧
    (working []).enabled 0 = true ∧ (working []).kind 0 = .fpu ∧ ((working []).cop 0).queue = [] ∧
    decodeUnit 0 0x00010 = .invalid ∧ decodeUnit 0x3F 0 = .unlisted ∧ decodeUnit 2 0 = .unlisted ∧
    (working []).cfg.unlistedFunction = .refuse ∧
    ({ Config.default with unlistedFunction := .raise } : Config).unlistedFunction = .raise ∧
    (working []).status = .running ∧ (working []).schedule = [] ∧ (working []).sysT = false ∧
    (∀ v, ¬ (working []).GateOpen v) ∧ (working []).VectorTo (8 + (0 : BitVec 3).toNat) 0x4080 := by
  refine ⟨by decide, by decide, by decide, by decide, by decide, by decide, by decide, rfl, rfl, rfl, rfl, by decide, ?_,
    vector8⟩
  have noError : ∀ u : Fin 8, (working []).pendingUnitError[u] = false := by decide
  have noIrq : ∀ q : Fin 32, (working []).pendingIrq[q] = false := by decide
  rintro v (⟨_, h⟩ | ⟨u, _, h, _⟩ | ⟨q, _, h, _⟩)
  · cases h
  · cases (noError u).symm.trans h
  · cases (noIrq q).symm.trans h

theorem witness_FpmovEffect : Cond.always.holds (((working []).cop 0).csr.extractLsb' 0 4) = true ∧
    Cond.zero.holds (((working []).cop 0).csr.extractLsb' 0 4) = false ∧
    ((23 : BitVec 5).toNat < 24 ∧ (24 : BitVec 5).toNat < 26 ∧ (25 : BitVec 5).toNat < 26 ∧ 26 ≤ (26 : BitVec 5).toNat) ∧
    ((fpu 3 0x10000).cop 0).fp[3] &&& 0x3C1F0000 ≠ 0 ∧
    (((fpu 3 0x400).cop 0).fp[3] &&& 0x3C1F0000 = 0 ∧
      ((fpu 3 0x400).cop 0).fp[3] &&& 0x0000FC10 ≠ ((fpu 3 0x400).cop 0).csr &&& 0x0000FC10) ∧
    (((fpu 3 0xC0000000).cop 0).fp[3] &&& 0x3C1F0000 = 0 ∧
      ((fpu 3 0xC0000000).cop 0).fp[3] &&& 0x0000FC10 = ((fpu 3 0xC0000000).cop 0).csr &&& 0x0000FC10) := by decide

theorem witness_StatusWritesChecked : (working [.statusWrite 24 0]).kind 0 = .fpu ∧
    ((working [.statusWrite 24 0]).cop 0).queue = .statusWrite 24 0 :: [] ∧
    ((working [.statusWrite 25 0x400]).cop 0).queue = .statusWrite 25 0x400 :: [] ∧
    (0x00010000 : Word) &&& 0x3C1F0000 ≠ 0 ∧ (0x20000000 : Word) &&& 0x3C1F0000 ≠ 0 ∧
    ((0x400 : Word) &&& 0x3C1F0000 = 0 ∧
      (0x400 : Word) &&& 0x0000FC10 ≠ ((working [.statusWrite 25 0x400]).cop 0).csr &&& 0x0000FC10) ∧
    (0xC3E003EF : Word) &&& 0x3C1F0000 = 0 ∧
      (0xC3E003EF : Word) &&& 0x0000FC10 = ((working []).cop 0).csr &&& 0x0000FC10 := by decide

theorem witness_Cvti2fExact : ∀ v ∈ [0#32, 0x01000000#32, 0xFF000000#32],
    ((((fpu 7 v).cop 0).fpReg ((7 : BitVec 3).setWidth 4)).toInt).natAbs ≤ 2 ^ 24 := by
  intro v hv
  have e : ((fpu 7 v).cop 0).fpReg ((7 : BitVec 3).setWidth 4) = v := rfl
  rw [e]
  simp only [List.mem_cons, List.not_mem_nil, or_false] at hv
  rcases hv with rfl | rfl | rfl <;> simp

theorem witness_Cvtf2iTruncates :
    let v (f : FloatFormat) (w : Word) := unpackFloat f (floatOperand (fpu 2 w).cfg.fp16 f (((fpu 2 w).cop 0).fpReg 2))
    v .fp32 0xC0200000 = .finite true 10485760 (-22) ∧ v .fp32 0x7F7FFFFF = .finite false 16777215 104 ∧
    v .fp32 0x7F800000 = .inf false ∧ v .fp16 0x3E00 = .finite false 1536 (-10) ∧ v .fp16 0x7C01 = .nan true := by decide

/-- -5/2 in the four modes, from the meaning of their names. -/
theorem test_RoundsTo : RoundsTo .nearestEven (-5) 2 (-2) ∧ ¬ RoundsTo .nearestEven (-5) 2 (-3) ∧
    RoundsTo .towardZero (-5) 2 (-2) ∧ RoundsTo .towardPositive (-5) 2 (-2) ∧ ¬ RoundsTo .towardPositive (-5) 2 (-3) ∧
    RoundsTo .towardNegative (-5) 2 (-3) ∧ ¬ RoundsTo .towardNegative (-5) 2 (-2) := by
  unfold RoundsTo
  decide

theorem witness_Cvtf2fHalfToSingle : start.cfg.fp16 = { high := false, fill := .zeros } ∧
    unpackFloat .fp16 (((fpu 2 0x0001).cop 0).fpReg 2).toNat = .finite false 1 (-24) ∧
    unpackFloat .fp16 (((fpu 2 0xFC00).cop 0).fpReg 2).toNat = .inf true ∧
    unpackFloat .fp16 (((fpu 2 0x7C01).cop 0).fpReg 2).toNat = .nan true := by decide

end Sys2Proof.Tests
end

