-- ==== Sys2Proof/Proofs/Reset.lean ====
section
/-! PROOFS. The values the spec gives for the state after reset (10_state.md R65). -/

namespace Sys2Proof.Machine

/-! ### The slots and their enable bits -/

/-- Every coprocessor slot starts in the state `Cop.reset`. -/
@[simp] theorem State.reset_cop (n : BitVec 3) : State.reset.cop n = Cop.reset := by
  rcases slot_cases n with h | h | h | h | h | h | h | h <;> subst h <;> rfl

/-- With `copen` zero no coprocessor is enabled, whichever are present (R47, R241). -/
theorem State.enabled_of_copen_eq_zero {s : State} (h : s.copen = 0) (n : BitVec 3) : s.enabled n = false := by
  simp [State.enabled, h]

/-! ### The constants that MOV reads -/

/-- Map 3 reads the machine's information registers (R44). -/
theorem State.mapRead_infoRegs (s : State) (i : BitVec 5) : (s.mapRead 3 i).1 = s.cfg.infoRegs[i.toNat]'i.isLt := rfl

/-- Map 4 register 31 reads `coppresent` (R48). -/
theorem State.mapRead_coppresent (s : State) : (s.mapRead 4 31).1 = s.coppresent := rfl

/-- The information registers of the default machine are all zero (log 14). -/
theorem Config.default_infoRegs : Config.default.infoRegs = Vector.replicate 32 0 := rfl

/-- Every register of Map 3 reads 0 at reset (R44). -/
theorem State.reset_mapRead_infoRegs (i : BitVec 5) : (State.reset.mapRead 3 i).1 = 0 := by
  have hinfo : State.reset.cfg.infoRegs = Vector.replicate 32 0 := Config.default_infoRegs
  rw [State.mapRead_infoRegs]
  simp only [hinfo, Vector.getElem_replicate]

/-- A slot at reset: control word 0, not enabled, nothing queued (R46, R55). -/
theorem State.reset_slot (n : BitVec 3) :
    (State.reset.cop n).ctl = 0 ∧ State.reset.enabled n = false ∧ (State.reset.cop n).queue = [] := by
  have hcopen : State.reset.copen = 0 := rfl
  rw [State.reset_cop]
  exact ⟨rfl, State.enabled_of_copen_eq_zero hcopen n, rfl⟩

/-- Settles O1: the scalar registers and the run status by the definition of `State.reset`, the indexed values by the lemmas
above. -/
theorem resetState : Obligations.ResetState := by
  unfold Obligations.ResetState
  exact ⟨rfl, rfl, rfl, State.reset_mapRead_infoRegs, State.reset_slot, rfl, State.mapRead_coppresent _, rfl, rfl,
    State.reset_pendingIrq, State.reset_pendingUnitError⟩

end Sys2Proof.Machine
end

