-- ==== Sys2Proof/Proofs/Und.lean ====
section
/-! PROOFS. What taking an exception does in each setting of `t` (60_exceptions.md R347, R350), and the UND instructions, which
do nothing else (40_und_pause_mov.md R141). -/

namespace Sys2Proof.Machine

/-! ### Taking an exception, by the setting of t -/

/-- Under t = 1 taking any exception is RESET (R347). -/
theorem State.raise_of_sysT {s : State} (ht : s.sysT = true) (e : Exc) : s.raise e = .next s.warmReset := by
  simp only [State.raise, ht, if_true]

/-- Under t = 0 an exception with a present and valid table entry is taken normally (R350). -/
theorem State.raise_of_vectorTo {s : State} {e : Exc} {a : Word} (ht : s.sysT = false) (hv : s.VectorTo e.number a) :
    s.raise e = .next (s.enterException a) := by
  have hread : s.readVector e.number = .target a := State.readVector_of_vectorTo hv
  simp only [State.raise, ht, hread]
  rfl

/-- Under t = 1 taking any exception leaves the state R390 describes (R347). -/
theorem State.raise_isReset {s : State} (ht : s.sysT = true) (e : Exc) : ∃ t, s.raise e = .next t ∧ s.IsReset t :=
  ⟨s.warmReset, State.raise_of_sysT ht e, State.warmReset_isReset s⟩

/-! ### UND -/

/-- Opcode 0x00 decodes to UND whatever the payload. -/
theorem decode_of_opcode_00 {w : Word} (hop : w.extractLsb' 0 8 = 0x00) : decode w = .ok (.und00 (w.extractLsb' 8 24)) := by
  simp [decode, decodeLow, hop]

/-- Opcode 0xFF decodes to UND whatever the payload. -/
theorem decode_of_opcode_FF {w : Word} (hop : w.extractLsb' 0 8 = 0xFF) : decode w = .ok (.undFF (w.extractLsb' 8 24)) := by
  simp [decode, hop]

/-- UND with opcode 0x00 raises EX[2] and does nothing else. -/
theorem exec_und00 (p : BitVec 24) (s : State) : exec (.und00 p) s = s.raise .invalidInstruction := rfl

/-- UND with opcode 0xFF raises EX[2] and does nothing else. -/
theorem exec_undFF (p : BitVec 24) (s : State) : exec (.undFF p) s = s.raise .invalidInstruction := rfl

/-- Settles O21: both opcodes decode to UND whatever the payload, both execute as raising EX[2], and the setting of t says what
that does. -/
theorem undTraps : Obligations.UndTraps := by
  unfold Obligations.UndTraps
  refine ⟨fun _ => decode_of_opcode_00, fun _ => decode_of_opcode_FF, fun p s => ?_⟩
  rw [exec_und00, exec_undFF]
  constructor
  · intro a ht hv
    have htaken : s.raise .invalidInstruction = .next (s.enterException a) :=
      State.raise_of_vectorTo (e := .invalidInstruction) ht hv
    exact ⟨htaken, htaken⟩
  · intro ht
    have hreset := State.raise_isReset ht .invalidInstruction
    exact ⟨hreset, hreset⟩

end Sys2Proof.Machine
end

/-! PROOFS. ST, LD and LRA (41_load_store.md): the state a completed ST or LD leaves, reading back a stored value, and with them
the push and pop of one base (R164) and LRA (R163). -/

namespace Sys2Proof.Machine

/-! ### LRA -/

/-- The offset of LRA is the field read as a signed or an unsigned integer (R163). -/
theorem lraOffset_eq_ofInt (x : Bool) (o : BitVec 16) :
    lraOffset x o = BitVec.ofInt 32 (if x then o.toInt else o.toNat) := by
  cases x with
  | false => exact (BitVec.ofNat_toNat 32 o).symm.trans (BitVec.ofInt_natCast 32 o.toNat).symm
  | true => rfl

/-- The address of the next instruction, as an integer reduced to a word (R24, R27). -/
theorem State.npc_eq_ofInt (s : State) : s.npc = BitVec.ofInt 32 (s.pc.toNat + 4) := by
  have hpc : BitVec.ofInt 32 (s.pc.toNat : Int) = s.pc := by simp
  rw [BitVec.ofInt_add, hpc]
  rfl

/-- LRA writes one register and moves to the next instruction. -/
theorem exec_lra (d : BitVec 5) (x : Bool) (o : BitVec 16) (s : State) :
    exec (.lra d x o) s = .next (s.setReg d (s.npc + lraOffset x o)).advance := rfl

/-- Settles O37: LRA is a register write and an advance, and the sum of words it writes is the sum of integers reduced to a
word. -/
theorem lraEffect : Obligations.LraEffect := by
  unfold Obligations.LraEffect
  intro d x o s
  have hvalue : s.npc + lraOffset x o = BitVec.ofInt 32 (s.pc.toNat + 4 + (if x then o.toInt else o.toNat)) := by
    rw [lraOffset_eq_ofInt, s.npc_eq_ofInt, ← BitVec.ofInt_add]
  refine ⟨_, exec_lra d x o s, by simp, by simp, fun j => ?_,
    (s.sameBeyondCore_setReg d _).trans (State.sameBeyondCore_advance _)⟩
  rw [State.reg_advance, State.reg_setReg, hvalue]

/-! ### Completed stores and loads -/

/-- A size code other than 3 names an access of at most four bytes (R160). -/
theorem accessSize_le_four {w : BitVec 2} (hw : w ≠ 3) : accessSize w ≤ 4 := by
  revert w
  decide

/-- The state a completed ST or PUSH leaves (R161). -/
def State.afterSt (s : State) (d i : BitVec 5) (w : BitVec 2) (p : Bool) : State :=
  let stored := s.storeBytes (s.storeAddr d w p) (accessSize w) (s.reg i)
  (if p then stored.setReg d (s.storeAddr d w p) else stored).advance

/-- The state a completed LD or POP leaves: the destination is written after the base (R162). -/
def State.afterLd (s : State) (d i : BitVec 5) (w : BitVec 2) (p : Bool) : State :=
  ((if p then s.setReg i (s.reg i + BitVec.ofNat 32 (accessSize w)) else s).setReg d
    (s.mem.readLE (s.reg i) (accessSize w))).advance

/-- The operand check of ST and LD passes (R160). -/
theorem operands_valid {b : BitVec 5} {w : BitVec 2} (hb : b ≠ 0) (hw : w ≠ 3) :
    (decide (b = 0) || decide (w = 3)) = false := by
  rw [decide_eq_false hb, decide_eq_false hw]
  rfl

/-- The alignment check of an access passes (R72). -/
theorem aligned_of_mod_eq_zero {a : Word} {n : Nat} (h : a.toNat % n = 0) : aligned a n = true := beq_iff_eq.2 h

/-- A store with a valid base and size, aligned and accepted by MEM_MAP, completes (R161). -/
theorem exec_st_of_accessible {d : BitVec 5} {w : BitVec 2} {p : Bool} {s : State} (i : BitVec 5) (hd : d ≠ 0) (hw : w ≠ 3)
    (haligned : (s.storeAddr d w p).toNat % accessSize w = 0)
    (hmap : Config.accessible s.cfg .write (s.storeAddr d w p) (accessSize w) = true) :
    exec (.st d i w p) s = .next (s.afterSt d i w p) := by
  change execSt d i w p s = _
  simp only [execSt, operands_valid hd hw, aligned_of_mod_eq_zero haligned, hmap, Bool.not_true, Bool.false_eq_true, if_false]
  rfl

/-- A load with a valid base and size, aligned and accepted by MEM_MAP, completes (R162). -/
theorem exec_ld_of_accessible {i : BitVec 5} {w : BitVec 2} {s : State} (d : BitVec 5) (p : Bool) (hi : i ≠ 0) (hw : w ≠ 3)
    (haligned : (s.reg i).toNat % accessSize w = 0)
    (hmap : Config.accessible s.cfg .read (s.reg i) (accessSize w) = true) :
    exec (.ld d i w p) s = .next (s.afterLd d i w p) := by
  change execLd d i w p s = _
  simp only [execLd, operands_valid hi hw, aligned_of_mod_eq_zero haligned, State.load, hmap, Bool.not_true,
    Bool.false_eq_true, if_false, if_true]
  rfl

@[simp] theorem State.afterSt_cfg (s : State) (d i : BitVec 5) (w : BitVec 2) (p : Bool) :
    (s.afterSt d i w p).cfg = s.cfg := by
  cases p <;> simp [State.afterSt]

@[simp] theorem State.afterSt_mem (s : State) (d i : BitVec 5) (w : BitVec 2) (p : Bool) :
    (s.afterSt d i w p).mem = s.mem.writeLE (s.storeAddr d w p) (s.reg i) (accessSize w) := by
  cases p <;> simp [State.afterSt]

/-- Only a push changes a register, and only its base. -/
theorem State.afterSt_reg (s : State) (d i : BitVec 5) (w : BitVec 2) (p : Bool) (j : BitVec 5) :
    (s.afterSt d i w p).reg j = if p = true ∧ j = d ∧ d ≠ 0 then s.storeAddr d w p else s.reg j := by
  cases p <;> simp [State.afterSt, State.reg_setReg]

/-- A load changes its destination, which comes first, and a pop its base. -/
theorem State.afterLd_reg (s : State) (d i : BitVec 5) (w : BitVec 2) (p : Bool) (j : BitVec 5) :
    (s.afterLd d i w p).reg j =
      if j = d ∧ d ≠ 0 then s.mem.readLE (s.reg i) (accessSize w)
      else if p = true ∧ j = i ∧ i ≠ 0 then s.reg i + BitVec.ofNat 32 (accessSize w)
      else s.reg j := by
  cases p <;> simp [State.afterLd, State.reg_setReg]

/-- The bytes a completed store leaves are those of the stored register (R71, R75). -/
theorem State.byteAt_afterSt {s : State} (hm : s.mem.wf = true) (d i : BitVec 5) {w : BitVec 2} (hw : w ≠ 3) (p : Bool)
    {k : Nat} (hk : k < accessSize w) :
    (s.afterSt d i w p).byteAt (s.storeAddr d w p + BitVec.ofNat 32 k) = (s.reg i).extractLsb' (8 * k) 8 := by
  unfold State.byteAt
  rw [State.afterSt_mem, Memory.read_writeLE hm _ _ (accessSize_le_four hw) hk]
  rfl

/-! ### Loading a stored value -/

/-- Putting a byte below a word of at most 24 bits. -/
theorem toNat_setWidth_or_shiftLeft (b : Byte) (x : Word) (hx : x.toNat < 2 ^ 24) :
    (b.setWidth 32 ||| x <<< 8).toNat = b.toNat + 2 ^ 8 * x.toNat := by
  have hb : b.toNat < 2 ^ 8 := b.isLt
  rw [BitVec.or_comm, BitVec.toNat_or, BitVec.toNat_shiftLeft, BitVec.toNat_setWidth, Nat.shiftLeft_eq,
    Nat.mod_eq_of_lt (by omega), Nat.mod_eq_of_lt (by omega), ← Nat.shiftLeft_eq, ← Nat.shiftLeft_add_eq_or_of_lt hb,
    Nat.shiftLeft_eq]
  omega

/-- A memory that holds the low `n` bytes of a value from `a` up reads as those bytes, zero-extended (R71, R74). -/
theorem Memory.toNat_readLE_of_bytes {m : Memory} {a v : Word} {n : Nat} (hn : n ≤ 4)
    (hbytes : ∀ k < n, m.read (a + BitVec.ofNat 32 k).toNat = (v >>> (8 * k)).setWidth 8) :
    (m.readLE a n).toNat = v.toNat % 2 ^ (8 * n) := by
  induction n generalizing a v with
  | zero => simp [Memory.readLE, Nat.mod_one]
  | succ n ih =>
    have hfirst : (m.read a.toNat).toNat = v.toNat % 2 ^ 8 := by
      have h := hbytes 0 n.succ_pos
      rw [BitVec.add_zero, Nat.mul_zero, BitVec.ushiftRight_zero] at h
      rw [h, BitVec.toNat_setWidth]
    have hrest : (m.readLE (a + 1) n).toNat = v.toNat / 2 ^ 8 % 2 ^ (8 * n) := by
      rw [ih (v := v >>> 8) (by omega), BitVec.toNat_ushiftRight, Nat.shiftRight_eq_div_pow]
      intro k hk
      rw [addr_succ, hbytes (k + 1) (by omega), ← BitVec.shiftRight_add, Nat.mul_succ, Nat.add_comm 8]
    have hsmall : (m.readLE (a + 1) n).toNat < 2 ^ 24 := by
      rw [hrest]
      exact (Nat.mod_lt _ (Nat.two_pow_pos _)).trans_le (Nat.pow_le_pow_right (by decide) (by omega))
    calc (m.readLE a (n + 1)).toNat
        = v.toNat % 2 ^ 8 + 2 ^ 8 * (v.toNat / 2 ^ 8 % 2 ^ (8 * n)) := by
          rw [Memory.readLE, toNat_setWidth_or_shiftLeft _ _ hsmall, hfirst, hrest]
      _ = v.toNat % 2 ^ (8 * (n + 1)) := by
          rw [Nat.mul_succ, Nat.add_comm (8 * n), Nat.pow_add, Nat.mod_mul]

/-- A load from where a value of the same size was stored gives its low bytes, zero-extended (R71, R74, R75). -/
theorem Memory.toNat_readLE_writeLE {m : Memory} (hm : m.wf = true) (a v : Word) {n : Nat} (hn : n ≤ 4) :
    ((m.writeLE a v n).readLE a n).toNat = v.toNat % 2 ^ (8 * n) :=
  Memory.toNat_readLE_of_bytes hn fun _ hk => Memory.read_writeLE hm a v hn hk

/-! ### A push and a pop of the same base -/

/-- A push leaves its base at the address it stored to. -/
theorem State.afterSt_push_base (s : State) {b : BitVec 5} (hb : b ≠ 0) (i : BitVec 5) (w : BitVec 2) :
    (s.afterSt b i w true).reg b = s.storeAddr b w true := by
  rw [State.afterSt_reg, if_pos ⟨rfl, rfl, hb⟩]

/-- A push then a pop change no register but the pop's destination (R164). -/
theorem State.reg_pop_push (s : State) {b : BitVec 5} (hb : b ≠ 0) (i e : BitVec 5) (w : BitVec 2) {j : BitVec 5}
    (hj : j ≠ e) : ((s.afterSt b i w true).afterLd e b w true).reg j = s.reg j := by
  rw [State.afterLd_reg, if_neg (fun h => hj h.1), s.afterSt_push_base hb]
  by_cases hjb : j = b
  · subst hjb
    rw [if_pos ⟨rfl, rfl, hb⟩]
    exact BitVec.sub_add_cancel _ _
  · rw [if_neg (fun h => hjb h.2.1), State.afterSt_reg, if_neg (fun h => hjb h.2.1)]

/-- A push then a pop load the low bytes of the pushed value, also into the base itself (R162, R164). -/
theorem State.reg_pop_push_dest {s : State} (hm : s.mem.wf = true) {b : BitVec 5} (hb : b ≠ 0) (i : BitVec 5)
    {e : BitVec 5} (he : e ≠ 0) {w : BitVec 2} (hw : w ≠ 3) :
    (((s.afterSt b i w true).afterLd e b w true).reg e).toNat = (s.reg i).toNat % 2 ^ (8 * accessSize w) := by
  rw [State.afterLd_reg, if_pos ⟨rfl, he⟩, s.afterSt_push_base hb, State.afterSt_mem,
    Memory.toNat_readLE_writeLE hm _ _ (accessSize_le_four hw)]

/-- Settles O36: the push completes and leaves its base at the stored bytes, so the pop completes at the same address, and the
lemmas above say what the two leave in each register. -/
theorem pushPopRestores : Obligations.PushPopRestores := by
  unfold Obligations.PushPopRestores
  intro b i e w s hb hw hm n addr haligned hwrite hread
  have hbase : (s.afterSt b i w true).reg b = addr := s.afterSt_push_base hb i w
  have hpush : exec (.st b i w true) s = .next (s.afterSt b i w true) :=
    exec_st_of_accessible i hb hw haligned hwrite
  have hpop : exec (.ld e b w true) (s.afterSt b i w true) = .next ((s.afterSt b i w true).afterLd e b w true) :=
    exec_ld_of_accessible e true hb hw (by rw [hbase]; exact haligned) (by rw [hbase, State.afterSt_cfg]; exact hread)
  have hothers : ∀ j, j ≠ e → ((s.afterSt b i w true).afterLd e b w true).reg j = s.reg j :=
    fun _ hj => s.reg_pop_push hb i e w hj
  refine ⟨_, _, hpush, hpop, hbase, fun k hk => ?_, fun he => State.reg_pop_push_dest hm hb i he hw,
    fun heb => hothers b heb.symm, hothers⟩
  rw [hbase]
  exact State.byteAt_afterSt hm b i hw true hk

end Sys2Proof.Machine

/-! PROOFS. ADDI, ADD, SUB, AND, OR and XOR (42_arithmetic.md): each instruction is one `State.writeResult` of its sources, so the
effect of that write and the laws of the flags settle all of them. -/

namespace Sys2Proof.Machine

/-! ### Writing a result -/

/-- Everything a result write does: the next pc, the destination, the flags in each setting of the suppress bit, the frame
(R22, R25, R180 to R185). -/
theorem State.writeResult_effect (s : State) (d : BitVec 5) (c : Bool) (res : Word × BitVec 4) :
    ∃ t, s.writeResult d c res = .next t ∧ t.pc = s.pc + 4 ∧
      (∀ q, t.reg q = if q = d ∧ d ≠ 0 then res.1 else s.reg q) ∧
      (c = true → t.flags = s.flags) ∧ (c = false → t.flags = res.2) ∧ s.SameBeyondCore t := by
  refine ⟨_, rfl, by simp, s.writeResult_reg d c res, ?_, ?_, s.writeResult_frame d c res⟩
  · rintro rfl
    simp
  · rintro rfl
    simp

/-- Writing a sum: ADDI and ADD differ only in their sources (R180, R181, R189). -/
theorem State.writeResult_addFlags (s : State) (d : BitVec 5) (c : Bool) (a b : Word) :
    ∃ t, s.writeResult d c (addFlags a b) = .next t ∧ t.pc = s.pc + 4 ∧
      (∀ q, t.reg q = if q = d ∧ d ≠ 0 then a + b else s.reg q) ∧
      (c = true → t.flags = s.flags) ∧
      (c = false → (t.flags.getLsbD 0 = true ↔ a + b = 0) ∧ (t.flags.getLsbD 1 = true ↔ (a + b).toInt < 0) ∧
        (t.flags.getLsbD 2 = true ↔ a.toInt + b.toInt ≠ (a + b).toInt) ∧
        (t.flags.getLsbD 3 = true ↔ 2 ^ 32 ≤ a.toNat + b.toNat)) ∧
      s.SameBeyondCore t := by
  obtain ⟨hflags, hsum⟩ := addFlags_spec a b
  obtain ⟨t, hexec, hpc, hreg, hkept, hwritten, hframe⟩ := s.writeResult_effect d c (addFlags a b)
  refine ⟨t, hexec, hpc, fun q => ?_, hkept, fun hc => ?_, hframe⟩
  · rw [hreg, hsum]
  · rw [hwritten hc]
    exact hflags

/-- Writing the result of a logic operation keeps C and V whatever the suppress bit (R183 to R185, R189). -/
theorem State.writeResult_logicResult (s : State) (d : BitVec 5) (c : Bool) (r : Word) :
    ∃ t, s.writeResult d c (s.logicResult r) = .next t ∧ t.pc = s.pc + 4 ∧
      (∀ q, t.reg q = if q = d ∧ d ≠ 0 then r else s.reg q) ∧
      (c = true → t.flags = s.flags) ∧
      (c = false → (t.flags.getLsbD 0 = true ↔ r = (0 : Word)) ∧ (t.flags.getLsbD 1 = true ↔ r.toInt < 0) ∧
        t.flags.getLsbD 2 = s.flags.getLsbD 2 ∧ t.flags.getLsbD 3 = s.flags.getLsbD 3) ∧
      s.SameBeyondCore t := by
  obtain ⟨t, hexec, hpc, hreg, hkept, hwritten, hframe⟩ := s.writeResult_effect d c (s.logicResult r)
  refine ⟨t, hexec, hpc, hreg, hkept, fun hc => ?_, hframe⟩
  rw [hwritten hc]
  exact logicFlags_spec s.flags r

/-! ### Each instruction as one result write -/

/-- ADDI adds its immediate to its own destination. -/
theorem exec_addi (d : BitVec 5) (h c x : Bool) (i : BitVec 16) (s : State) :
    exec (.addi d h c x i) s = s.writeResult d c (addFlags (s.reg d) (addiImm h x i)) := rfl

section ShiftedSources

variable (d i j : BitVec 5) (c : Bool) (k : BitVec 5) (p : Bool) (s : State)

theorem exec_add : exec (.add d i j c k p) s =
    s.writeResult d c (addFlags (s.aluSources i j k p).1 (s.aluSources i j k p).2) := rfl

theorem exec_sub : exec (.sub d i j c k p) s =
    s.writeResult d c (subFlags (s.aluSources i j k p).1 (s.aluSources i j k p).2) := rfl

theorem exec_and : exec (.and d i j c k p) s =
    s.writeResult d c (s.logicResult ((s.aluSources i j k p).1 &&& (s.aluSources i j k p).2)) := rfl

theorem exec_or : exec (.or d i j c k p) s =
    s.writeResult d c (s.logicResult ((s.aluSources i j k p).1 ||| (s.aluSources i j k p).2)) := rfl

theorem exec_xor : exec (.xor d i j c k p) s =
    s.writeResult d c (s.logicResult ((s.aluSources i j k p).1 ^^^ (s.aluSources i j k p).2)) := rfl

end ShiftedSources

/-! ### Addition and subtraction -/

/-- The immediate of ADDI as a number: 2^16 times the field, or the field read as a signed or an unsigned integer (R180). -/
theorem addiImm_eq (h x : Bool) (i : BitVec 16) : addiImm h x i =
    if h then BitVec.ofNat 32 (i.toNat * 65536) else BitVec.ofInt 32 (if x then i.toInt else i.toNat) := by
  cases h with
  | false => exact lraOffset_eq_ofInt x i
  | true =>
    apply BitVec.eq_of_toNat_eq
    have hlt : i.toNat * 65536 < 2 ^ 32 := by omega
    calc (i ++ 0#16).toNat = i.toNat * 65536 := by rw [BitVec.toNat_append]; simp [Nat.shiftLeft_eq]
      _ = (BitVec.ofNat 32 (i.toNat * 65536)).toNat := by rw [BitVec.toNat_ofNat, Nat.mod_eq_of_lt hlt]

/-- Settles O38: ADDI writes the sum of its destination and its immediate. -/
theorem addiEffect : Obligations.AddiEffect := by
  unfold Obligations.AddiEffect
  intro d h c x i s
  rw [exec_addi, addiImm_eq]
  exact s.writeResult_addFlags d c _ _

/-- Settles O39: ADD writes the sum of its sources, which R188 gives as products. -/
theorem addEffect : Obligations.AddEffect := by
  unfold Obligations.AddEffect
  intro d i j c k p s
  rw [exec_add, State.aluSources_eq]
  exact s.writeResult_addFlags d c _ _

/-- Settles O40: SUB writes the difference of its sources, with the flags `subFlags_spec` gives. -/
theorem subEffect : Obligations.SubEffect := by
  unfold Obligations.SubEffect
  intro d i j c k p s a b r
  rw [exec_sub, State.aluSources_eq]
  obtain ⟨t, hexec, hpc, hreg, hkept, hwritten, hframe⟩ := s.writeResult_effect d c (subFlags a b)
  refine ⟨t, hexec, hpc, hreg, hkept, fun hc => ?_, hframe⟩
  rw [hwritten hc]
  exact subFlags_spec a b

/-! ### Logic -/

/-- Settles O41: each of the three writes its own bitwise operation, whose bits Lean's lemmas on bit vectors give. -/
theorem logicEffect : Obligations.LogicEffect := by
  unfold Obligations.LogicEffect
  intro d i j c k p s a b f op hcase
  obtain ⟨r, hbits, hexec⟩ : ∃ r : Word, (∀ z, r.getLsbD z = op (a.getLsbD z) (b.getLsbD z)) ∧
      exec f s = s.writeResult d c (s.logicResult r) := by
    obtain ⟨rfl, rfl⟩ | ⟨rfl, rfl⟩ | ⟨rfl, rfl⟩ := hcase
    · exact ⟨a &&& b, fun _ => BitVec.getLsbD_and, by rw [exec_and, State.aluSources_eq]⟩
    · exact ⟨a ||| b, fun _ => BitVec.getLsbD_or, by rw [exec_or, State.aluSources_eq]⟩
    · exact ⟨a ^^^ b, fun _ => BitVec.getLsbD_xor, by rw [exec_xor, State.aluSources_eq]⟩
  obtain ⟨t, hnext, hpc, hreg, hflags⟩ := s.writeResult_logicResult d c r
  exact ⟨t, r, hexec.trans hnext, hpc, fun z _ => hbits z, hreg, hflags⟩

end Sys2Proof.Machine

/-! PROOFS. The conditions and the jumps (43_branches.md): the table of predicates (R202), what the conditions say after a
subtraction (R205), and JMP and JMPR as one conditional jump (R203, R204). -/

namespace Sys2Proof.Machine

/-! ### The table of predicates -/

/-- Every number is the number of the condition it names (R201). -/
theorem toBits_ofBits_cond (k : BitVec 4) : (Cond.ofBits k).toBits = k := by
  revert k
  decide

/-- The condition whose number is the bitwise complement of a condition's is its negation (R202). -/
theorem holds_not_toBits (c : Cond) (f : BitVec 4) : (Cond.ofBits (~~~c.toBits)).holds f = !c.holds f := by
  cases c with
  | never | carry | zero | overflow | signedLess | signedLessOrEq | negative | always => rfl
  | positive | signedGreater | signedGreaterOrEq | notOverflow | notZero | notCarry => exact (Bool.not_not _).symm
  | carryOrEqual => exact (Bool.not_or _ _).symm
  | above => exact (by decide : ∀ x y : Bool, (x || y) = !(!x && !y)) (flagC f) (flagZ f)

/-- Complementary numbers name complementary predicates (R202). -/
theorem holds_ofBits_not (k f : BitVec 4) : (Cond.ofBits (~~~k)).holds f = !(Cond.ofBits k).holds f := by
  rw [← holds_not_toBits, toBits_ofBits_cond]

/-- A complementary number's predicate holds exactly when the number's own does not. -/
theorem holds_ofBits_not_iff (k f : BitVec 4) : (Cond.ofBits (~~~k)).holds f = true ↔ ¬ (Cond.ofBits k).holds f = true := by
  rw [holds_ofBits_not, Bool.not_eq_true', Bool.not_eq_true]

/-- Settles O42: the rows are the definition of `Cond.holds`, the pairs are `holds_ofBits_not`. -/
theorem conditionTable : Obligations.ConditionTable := by
  unfold Obligations.ConditionTable
  intro f Z N V C
  refine ⟨fun k => ?_, rfl, rfl, rfl, rfl, rfl, rfl, rfl, rfl⟩
  rw [holds_ofBits_not, Bool.not_not]

/-! ### The conditions after a subtraction -/

/-- The sources of a register operation without a shift are the registers, whichever one p would shift (R188). -/
theorem State.aluSources_unshifted (s : State) (i j : BitVec 5) (p : Bool) : s.aluSources i j 0 p = (s.reg i, s.reg j) := by
  cases p <;> simp [State.aluSources]

/-- SUB r0 without a shift leaves the flags of the difference of its registers (R182). -/
theorem exec_sub_flags (i j : BitVec 5) (p : Bool) (s : State) :
    ∃ t, exec (.sub 0 i j false 0 p) s = .next t ∧ t.flags = (subFlags (s.reg i) (s.reg j)).2 := by
  rw [exec_sub, State.aluSources_unshifted]
  obtain ⟨t, hexec, -, -, -, hflags, -⟩ := s.writeResult_effect 0 false (subFlags (s.reg i) (s.reg j))
  exact ⟨t, hexec, hflags rfl⟩

/-- A signed difference that wraps has the wrong sign. -/
theorem toInt_sub_neg_iff_of_wraps {a b : Word} (hwraps : a.toInt - b.toInt ≠ (a - b).toInt) :
    (a - b).toInt < 0 ↔ ¬ a.toInt < b.toInt := by
  have hr : (a - b).toInt = (a.toInt - b.toInt).bmod (2 ^ 32) := BitVec.toInt_sub
  have ha := a.le_toInt
  have ha' := a.toInt_lt
  have hb := b.le_toInt
  have hb' := b.toInt_lt
  rw [Int.bmod_def] at hr
  omega

/-- After a subtraction Z says that the operands are equal. -/
theorem subFlags_zero_iff (a b : Word) : (subFlags a b).2.getLsbD 0 = true ↔ a = b := by
  obtain ⟨hZ, -, -, -⟩ := subFlags_spec a b
  rw [hZ, sub_eq_zero]

/-- After a subtraction N differs from V exactly when the first operand is the smaller signed number (R205). -/
theorem subFlags_signedLess_iff (a b : Word) :
    a.toInt < b.toInt ↔ (subFlags a b).2.getLsbD 1 ≠ (subFlags a b).2.getLsbD 2 := by
  obtain ⟨-, hN, hV, -⟩ := subFlags_spec a b
  rw [Ne, Bool.eq_iff_iff, hN, hV]
  by_cases hwraps : a.toInt - b.toInt ≠ (a - b).toInt
  · rw [toInt_sub_neg_iff_of_wraps hwraps]
    tauto
  · rw [iff_false_right hwraps, not_not, ← not_not.1 hwraps, sub_neg]

/-- After a subtraction V equals N exactly when the second operand is not the greater signed number (R205). -/
theorem subFlags_overflow_beq_negative_iff (a b : Word) :
    ((subFlags a b).2.getLsbD 2 == (subFlags a b).2.getLsbD 1) = true ↔ b.toInt ≤ a.toInt := by
  rw [beq_iff_eq, ← not_lt, subFlags_signedLess_iff, not_not, eq_comm]

/-- Settles O43: the rows 1 to 6 of R202 read the flags of the difference, and the rows 9 to 14 are their complements. -/
theorem conditionsAfterSub : Obligations.ConditionsAfterSub := by
  unfold Obligations.ConditionsAfterSub
  intro i j p s
  obtain ⟨t, hexec, hflags⟩ := exec_sub_flags i j p s
  refine ⟨t, hexec, ?_⟩
  rw [hflags]
  intro a b holds
  obtain ⟨-, hN, hV, hC⟩ := subFlags_spec a b
  have hZ := subFlags_zero_iff a b
  have hVN := subFlags_overflow_beq_negative_iff a b
  obtain ⟨-, hrow1, hrow2, hrow3, hrow4, hrow5, hrow6, hrow7, -⟩ := conditionTable (subFlags a b).2
  have hcompl (k : BitVec 4) : holds (~~~k) = true ↔ ¬ holds k = true := holds_ofBits_not_iff k _
  have below : holds 1 = true ↔ a.toNat < b.toNat := (Bool.eq_iff_iff.1 hrow1).trans hC
  have equal : holds 2 = true ↔ a = b := (Bool.eq_iff_iff.1 hrow2).trans hZ
  have overflow : holds 3 = true ↔ a.toInt - b.toInt ≠ (a - b).toInt := (Bool.eq_iff_iff.1 hrow3).trans hV
  have belowOrEqual : holds 4 = true ↔ a.toNat ≤ b.toNat := (Bool.eq_iff_iff.1 hrow4).trans <| by
    rw [Bool.or_eq_true, hC, hZ, Nat.le_iff_lt_or_eq, BitVec.toNat_inj]
  have greater : holds 5 = true ↔ b.toInt < a.toInt := (Bool.eq_iff_iff.1 hrow5).trans <| by
    rw [Bool.and_eq_true, Bool.not_eq_true', ← Bool.not_eq_true, hVN, hZ, lt_iff_le_and_ne, ne_comm, Ne, BitVec.toInt_inj]
  have greaterOrEqual : holds 6 = true ↔ b.toInt ≤ a.toInt := (Bool.eq_iff_iff.1 hrow6).trans <| by
    rw [Bool.or_eq_true, hVN, hZ]
    exact or_iff_left_of_imp fun hab => hab ▸ le_rfl
  have negative : holds 7 = (a - b).getLsbD 31 := hrow7.trans <| by
    rw [Bool.eq_iff_iff, hN, ← BitVec.msb_eq_getLsbD_last, BitVec.msb_eq_toInt, decide_eq_true_eq]
  exact ⟨below, (hcompl 1).trans ((not_congr below).trans Nat.not_lt), belowOrEqual,
    (hcompl 4).trans ((not_congr belowOrEqual).trans Nat.not_le), equal, (hcompl 2).trans (not_congr equal), greater,
    greaterOrEqual, (hcompl 6).trans ((not_congr greaterOrEqual).trans Int.not_le),
    (hcompl 5).trans ((not_congr greater).trans Int.not_lt), negative, overflow, subFlags_signedLess_iff a b⟩

/-! ### Jumps -/

/-- What JMP and JMPR do once their target is known: the jump when the condition holds, else the next instruction (R200). -/
def State.jumpIf (s : State) (taken : Bool) (l : BitVec 5) (target : Word) : State :=
  if taken then s.jumpTo l target else s.advance

section JumpIf

variable (s : State) (taken : Bool) (l : BitVec 5) (target : Word)

theorem State.jumpIf_pc : (s.jumpIf taken l target).pc = if taken then target else s.pc + 4 := by
  cases taken <;> rfl

/-- A jump links only when it is taken and the link register is not r0 (R203). -/
theorem State.jumpIf_reg (j : BitVec 5) :
    (s.jumpIf taken l target).reg j = if taken = true ∧ j = l ∧ l ≠ 0 then s.pc + 4 else s.reg j := by
  cases taken with
  | false => simp [State.jumpIf]
  | true => simp [State.jumpIf, State.jumpTo, State.reg_setReg, State.npc]

theorem State.jumpIf_flags : (s.jumpIf taken l target).flags = s.flags := by
  cases taken <;> simp [State.jumpIf, State.jumpTo]

theorem State.sameBeyondCore_jumpIf : s.SameBeyondCore (s.jumpIf taken l target) := by
  cases taken with
  | false => exact s.sameBeyondCore_advance
  | true => exact (s.sameBeyondCore_setReg l _).trans (State.sameBeyondCore_goto _ target)

end JumpIf

/-- The displacement of JMP is four times its signed offset, reduced to a word (R203). -/
theorem jmpDisp_eq_ofInt (o : BitVec 15) : jmpDisp o = BitVec.ofInt 32 (4 * o.toInt) := by
  rw [BitVec.ofInt_mul, BitVec.mul_comm]
  exact BitVec.shiftLeft_eq_mul_twoPow _ 2

/-- JMP jumps to the address of the next instruction plus its displacement (R203). -/
theorem exec_jmp (c : Cond) (l : BitVec 5) (o : BitVec 15) (s : State) :
    exec (.jmp c l o) s = .next (s.jumpIf (c.holds s.flags) l (s.npc + jmpDisp o)) :=
  (apply_ite Host.Outcome.next _ _ _).symm

/-- Settles O44: JMP is a conditional jump, and the sum of words it jumps to is the sum of integers reduced to a word. -/
theorem jmpEffect : Obligations.JmpEffect := by
  unfold Obligations.JmpEffect
  intro c l o s
  have htarget : s.npc + jmpDisp o = BitVec.ofInt 32 (s.pc.toNat + 4 + 4 * o.toInt) := by
    rw [s.npc_eq_ofInt, jmpDisp_eq_ofInt, ← BitVec.ofInt_add]
  refine ⟨_, exec_jmp c l o s, ?_, s.jumpIf_reg _ l _, s.jumpIf_flags _ l _, s.sameBeyondCore_jumpIf _ l _⟩
  rw [State.jumpIf_pc, htarget]

/-- The two low bits of an address are zero exactly when it is a multiple of four. -/
theorem lowTwoBits_eq_zero_iff (a : Word) : a.extractLsb' 0 2 = 0 ↔ a.toNat % 4 = 0 := by
  rw [← BitVec.toNat_inj, BitVec.extractLsb'_toNat]
  rfl

/-- JMPR to an aligned target is a conditional jump to what the register holds before the link (R204). -/
theorem exec_jmpr_of_aligned (c : Cond) (l : BitVec 5) {r : BitVec 5} {s : State} (h : (s.reg r).toNat % 4 = 0) :
    exec (.jmpr c l r) s = .next (s.jumpIf (c.holds s.flags) l (s.reg r)) := by
  have hlow : ¬ (s.reg r).extractLsb' 0 2 ≠ 0 := not_not.2 ((lowTwoBits_eq_zero_iff _).2 h)
  exact (if_neg hlow).trans (apply_ite Host.Outcome.next _ _ _).symm

/-- JMPR to a target with a low bit set raises EX[3] whatever the condition (R204). -/
theorem exec_jmpr_of_unaligned (c : Cond) (l : BitVec 5) {r : BitVec 5} {s : State} (h : (s.reg r).toNat % 4 ≠ 0) :
    exec (.jmpr c l r) s = s.raise .unalignedTarget :=
  if_pos (mt (lowTwoBits_eq_zero_iff _).1 h)

/-- Settles O45: the alignment of the target decides between a conditional jump and taking EX[3]. -/
theorem jmprEffect : Obligations.JmprEffect := by
  unfold Obligations.JmprEffect
  intro c l r s
  refine ⟨fun haligned => ?_, fun hunaligned => ?_⟩
  · exact ⟨_, exec_jmpr_of_aligned c l haligned, s.jumpIf_pc _ l _, s.jumpIf_reg _ l _, s.jumpIf_flags _ l _,
      s.sameBeyondCore_jumpIf _ l _⟩
  · rw [exec_jmpr_of_unaligned c l hunaligned]
    exact ⟨fun _ => State.raise_of_vectorTo (e := .unalignedTarget), fun ht => State.raise_isReset ht _⟩

end Sys2Proof.Machine

/-! PROOFS. OUT, LDFLAGS and STFLAGS (44_io_flags.md): the state an OUT leaves (R224), LDFLAGS as a result write that leaves the
flags alone, and STFLAGS reading back what LDFLAGS saved (R225 to R227). -/

namespace Sys2Proof.Machine

/-! ### OUT -/

/-- What an OUT of n bits leaves: the transfer register shifted down by n, the low n bits in the port trace, the next pc (R224). -/
def State.afterOut (s : State) (i : BitVec 5) (p : BitVec 8) (n : Nat) : State :=
  ((s.setIoReg i (s.ioReg i >>> n)).portOut p n (lowBits (s.ioReg i) n)).advance

/-- OUT completes whatever its operands (R224). -/
theorem exec_out (i : BitVec 5) (p : BitVec 8) (w : BitVec 5) (s : State) :
    exec (.out i p w) s = .next (s.afterOut i p (bitCount w)) := rfl

section AfterOut

variable (s : State) (i : BitVec 5) (p : BitVec 8) (n : Nat)

theorem State.afterOut_ioTrace : (s.afterOut i p n).ioTrace = s.ioTrace ++ [.output p n (lowBits (s.ioReg i) n)] := rfl

theorem State.afterOut_ioReg (j : BitVec 5) :
    (s.afterOut i p n).ioReg j = if j = i then s.ioReg i >>> n else s.ioReg j :=
  s.ioReg_setIoReg i j _

/-- Zeros enter at the top of the transfer register: its value is divided by 2^n (R224). -/
theorem State.afterOut_ioReg_toNat : ((s.afterOut i p n).ioReg i).toNat = (s.ioReg i).toNat / 2 ^ n := by
  rw [State.afterOut_ioReg, if_pos rfl, BitVec.toNat_ushiftRight, Nat.shiftRight_eq_div_pow]

theorem State.afterOut_byteAt (b : Word) : (s.afterOut i p n).byteAt b = s.byteAt b := State.byteAt_congr rfl b

theorem State.afterOut_frame : s.afterOut i p n =
    { s with io := (s.afterOut i p n).io, ioTrace := (s.afterOut i p n).ioTrace, pc := s.pc + 4 } := rfl

end AfterOut

/-- Settles O47: the bits sent are a remainder by 2^n and the bits kept the quotient. -/
theorem outEffect : Obligations.OutEffect := by
  unfold Obligations.OutEffect
  intro i p w s
  rw [← (bitCount_spec w).1]
  have hsent : (lowBits (s.ioReg i) (bitCount w)).toNat = (s.ioReg i).toNat % 2 ^ bitCount w :=
    lowBits_toNat _ _ (bitCount_spec w).2.1
  exact ⟨_, _, exec_out i p w s, hsent, s.afterOut_ioTrace i p _, s.afterOut_ioReg_toNat i p _,
    fun j hj => (s.afterOut_ioReg i p _ j).trans (if_neg hj), s.afterOut_byteAt i p _, s.afterOut_frame i p _⟩

/-! ### LDFLAGS and STFLAGS -/

/-- LDFLAGS writes the zero-extended flags as a result that leaves the flags alone (R225). -/
theorem exec_ldflags (d : BitVec 5) (s : State) :
    exec (.ldflags d) s = s.writeResult d true (s.flags.setWidth 32, s.flags) := rfl

/-- STFLAGS sets the flags to the low four bits of its source (R226). -/
theorem exec_stflags (i : BitVec 5) (s : State) :
    exec (.stflags i) s = .next (s.setFlags ((s.reg i).extractLsb' 0 4)).advance := by
  rw [← BitVec.setWidth_eq_extractLsb' (by decide)]
  rfl

/-- Zero extension keeps the flags in the low four bits (R225, R227). -/
theorem lowFourBits_setWidth (f : BitVec 4) : (f.setWidth 32).extractLsb' 0 4 = f := by
  rw [← BitVec.setWidth_eq_extractLsb' (by decide), BitVec.setWidth_setWidth_of_le _ (by decide), BitVec.setWidth_eq]

/-- A register that still holds the saved flags gives them back; r0 holds none and clears them (R22, R227). -/
theorem exec_stflags_of_saved {r : BitVec 5} {f : BitVec 4} {u : State}
    (hsaved : u.reg r = if r = 0 then 0 else f.setWidth 32) :
    ∃ v, exec (.stflags r) u = .next v ∧ v.flags = if r = 0 then 0 else f := by
  refine ⟨_, exec_stflags r u, ?_⟩
  rw [State.advance_flags, State.setFlags_flags, hsaved, apply_ite (BitVec.extractLsb' 0 4), lowFourBits_setWidth]
  rfl

/-- Settles O48: LDFLAGS is a result write, and STFLAGS on its destination reads back the flags it wrote. -/
theorem flagMovesEffect : Obligations.FlagMovesEffect := by
  unfold Obligations.FlagMovesEffect
  intro r s
  constructor
  · obtain ⟨t, hexec, hpc, hreg, hflags, -, hframe⟩ := s.writeResult_effect r true (s.flags.setWidth 32, s.flags)
    refine ⟨t, (exec_ldflags r s).trans hexec, hpc, hflags rfl, hreg, hframe, fun u hu => exec_stflags_of_saved ?_⟩
    rw [hu, hreg]
    by_cases hr : r = 0
    · rw [if_neg (fun h => h.2 hr), if_pos hr, hr]
      exact s.reg_zero
    · rw [if_pos ⟨rfl, hr⟩, if_neg hr]
  · exact ⟨_, exec_stflags r s, rfl, rfl, fun j => State.reg_congr rfl j,
      (s.sameBeyondCore_setFlags _).trans (State.sameBeyondCore_advance _)⟩

end Sys2Proof.Machine

/-! PROOFS. Exception entry and interrupt entry (60_exceptions.md R347, R350, R353): an exception is what `State.raise` does in each
setting of t; an interrupt is the step of its own that a boundary takes, with the state it leaves. -/

namespace Sys2Proof.Machine

/-! ### Exception entry -/

/-- Settles O8: the two settings of t. -/
theorem exceptionEntry : Obligations.ExceptionEntry := by
  unfold Obligations.ExceptionEntry
  exact fun s e => ⟨fun ht => State.raise_isReset ht e, fun _ ht hv => State.raise_of_vectorTo ht hv⟩

/-! ### Interrupt entry -/

/-- The state a normal interrupt entry for vector v leaves: the next instruction's address saved, control at the handler, the CPU
running, the indication of v cleared, nothing else changed (R261, R353). -/
def State.enterInterrupt (s : State) (v : Nat) (a : Word) : State :=
  { s with
    intret := s.pc, pc := a, status := .running,
    pendingNmi := (s.clearPending v).pendingNmi,
    pendingUnitError := (s.clearPending v).pendingUnitError,
    pendingIrq := (s.clearPending v).pendingIrq }

/-- Clearing an indication and waking the CPU leave the interrupt table as it reads. -/
theorem State.readVector_wake (s : State) (v n : Nat) :
    ((s.clearPending v).setStatus .running).readVector n = s.readVector n := by
  have hframe := s.clearPending_frame v
  exact State.readVector_congr (congrArg State.mem hframe) (congrArg State.cfg hframe) (congrArg State.inttab hframe) n

/-- An interrupt with a present and valid table entry is taken normally (R353). -/
theorem takeInterrupt_of_vectorTo {s : State} {v : Nat} {a : Word} (hv : s.VectorTo v a) :
    takeInterrupt v s = .next (s.enterInterrupt v a) := by
  have hread : ((s.clearPending v).setStatus .running).readVector v = .target a :=
    (s.readVector_wake v v).trans (State.readVector_of_vectorTo hv)
  have hentered : ((s.clearPending v).setStatus .running).saveReturn.goto a = s.enterInterrupt v a :=
    congrArg (fun u => (u.setStatus .running).saveReturn.goto a) (s.clearPending_frame v)
  simp only [takeInterrupt, State.interrupt, hread, hentered]

/-- A CPU that is not stopped takes the interrupt chosen at its boundary, whether it runs or is halted (R261, R355). -/
theorem atBoundary_of_chosen {s : State} {v : Nat} (hstatus : s.status ≠ .stopped) (hchosen : s.chooseInterrupt = some v) :
    atBoundary s = takeInterrupt v s := by
  unfold atBoundary
  rw [hchosen]
  cases h : s.status with
  | running => rfl
  | halted => rfl
  | stopped => exact absurd h hstatus

/-- A boundary at which nothing arrives samples interrupts in the state as it is. -/
theorem step_of_no_arrivals {s : State} (hschedule : s.schedule = []) : step s = atBoundary s := by
  have harrivals : arrivals s = .next s := by
    unfold arrivals
    rw [hschedule]
  unfold step cycle
  rw [harrivals]
  rfl

/-- Settles O10: the step is the entry `enterInterrupt` describes, and the pending indications are those `clearPending` leaves. -/
theorem interruptEntry : Obligations.InterruptEntry := by
  unfold Obligations.InterruptEntry
  intro s v a hstatus hschedule hchosen hv
  have hstep : step s = .next (s.enterInterrupt v a) := by
    rw [step_of_no_arrivals hschedule, atBoundary_of_chosen hstatus hchosen, takeInterrupt_of_vectorTo hv]
  exact ⟨s.enterInterrupt v a, hstep, rfl, rfl, rfl, rfl, s.clearPending_nmi v, s.clearPending_unitError v,
    s.clearPending_irq v, fun j => State.reg_congr rfl j, rfl, fun b => State.byteAt_congr rfl b, rfl⟩

end Sys2Proof.Machine

/-! PROOFS. Decoding and encoding (30_encoding.md, 47_fpu_unit.md R278). A word is the concatenation of its fields: a field of a
concatenation is the field that was put there, and adjacent fields of one word concatenate to the word again. Each format is
settled once in each direction, and the instructions are cases over the formats. -/

namespace Sys2Proof

section Encoding

open Machine (decode_of_opcode_00 decode_of_opcode_FF)
open BitVec (extractLsb'_append_eq_of_le extractLsb'_append_eq_of_add_le extractLsb'_eq_self
  extractLsb'_append_extractLsb'_eq_extractLsb')

/-! ### One-bit fields, numbers and must-be-zero checks -/

/-- A one-bit field put back into its place. -/
theorem flagBit_bitField {n : Nat} (w : BitVec n) (k : Nat) : flagBit (bitField w k) = w.extractLsb' k 1 := by
  apply BitVec.eq_of_getLsbD_eq
  intro i hi
  obtain rfl : i = 0 := by omega
  simp [flagBit, bitField]

theorem bitField_append_high {m n : Nat} (hi : BitVec m) (lo : BitVec n) {k : Nat} (h : n ≤ k) :
    bitField (hi ++ lo) k = bitField hi (k - n) := by
  simp [bitField, BitVec.getLsbD_append, show ¬ k < n by omega]

theorem bitField_append_low {m n : Nat} (hi : BitVec m) (lo : BitVec n) {k : Nat} (h : k < n) :
    bitField (hi ++ lo) k = bitField lo k := by
  simp [bitField, BitVec.getLsbD_append, h]

theorem bitField_flagBit (b : Bool) : bitField (flagBit b) 0 = b := by
  cases b <;> rfl

/-- A condition is the one its number names (R201). -/
theorem ofBits_toBits_cond (c : Cond) : Cond.ofBits c.toBits = c := by
  cases c <;> rfl

/-- Every two-bit number is the number of the rounding mode it names (R276). -/
theorem toBits_ofBits_roundMode (r : BitVec 2) : (RoundMode.ofBits r).toBits = r := by
  revert r
  decide

theorem ofBits_toBits_roundMode (r : RoundMode) : RoundMode.ofBits r.toBits = r := by
  cases r <;> rfl

theorem ofBits_toBits_floatFormat (f : FloatFormat) : FloatFormat.ofBits f.toBits = some f := by
  cases f <;> rfl

/-- A number that names a format is that format's number (R284). -/
theorem toBits_of_ofBits_floatFormat {b : BitVec 2} {f : FloatFormat} (h : FloatFormat.ofBits b = some f) :
    f.toBits = b := by
  revert b f
  decide

/-- An accepted instruction had its must-be-zero bits zero (R112). -/
theorem accept_ok {zero : Bool} {op : BitVec 8} {i j : Instr} (h : accept zero op i = .ok j) : zero = true ∧ i = j := by
  cases zero with
  | true => exact ⟨rfl, by simpa [accept] using h⟩
  | false => simp [accept] at h

/-- The must-be-zero check never calls an opcode unassigned. -/
theorem accept_ne_unassigned (zero : Bool) (op o : BitVec 8) (i : Instr) : accept zero op i ≠ .error (.unassignedOpcode o) := by
  cases zero <;> simp [accept]

/-- An accepted unit instruction had its must-be-zero bits zero (R279). -/
theorem acceptUnit_instr {zero : Bool} {u v : UnitInstr} (h : acceptUnit zero u = .instr v) : zero = true ∧ u = v := by
  cases zero with
  | true => exact ⟨rfl, by simpa [acceptUnit] using h⟩
  | false => simp [acceptUnit] at h

/-! ### From an encoded word to its fields -/

theorem decodeMov_encode (d s : BitVec 5) (l : Bool) (c : Cond) (r : Bool) (m : BitVec 4) :
    decodeMov (encode (.mov d s l c r m)) = .ok (.mov d s l c r m) := by
  simp (disch := decide) only [encode, decodeMov, extractLsb'_append_eq_of_le, extractLsb'_append_eq_of_add_le,
    Nat.reduceSub, extractLsb'_eq_self, bitField_append_high, bitField_append_low, bitField_flagBit, ofBits_toBits_cond]
  rfl

theorem decodeMem_encodeMem (op : BitVec 8) (mk : BitVec 5 → BitVec 5 → BitVec 2 → Bool → Instr) (d s : BitVec 5)
    (w : BitVec 2) (p : Bool) : decodeMem op mk (encodeMem op d s w p) = .ok (mk d s w p) := by
  simp (disch := decide) only [encodeMem, decodeMem, extractLsb'_append_eq_of_le, extractLsb'_append_eq_of_add_le,
    Nat.reduceSub, extractLsb'_eq_self, bitField_append_high, bitField_flagBit]
  rfl

theorem decodeAlu_encodeAlu (op : BitVec 8) (mk : BitVec 5 → BitVec 5 → BitVec 5 → Bool → BitVec 5 → Bool → Instr)
    (d a b : BitVec 5) (c : Bool) (s : BitVec 5) (p : Bool) :
    decodeAlu op mk (encodeAlu op d a b c s p) = .ok (mk d a b c s p) := by
  simp (disch := decide) only [encodeAlu, decodeAlu, extractLsb'_append_eq_of_le, extractLsb'_append_eq_of_add_le,
    Nat.reduceSub, extractLsb'_eq_self, bitField_append_high, bitField_append_low, bitField_flagBit]
  rfl

theorem decodeBs_encodeBs (op : BitVec 8)
    (mk : BitVec 5 → BitVec 5 → BitVec 5 → Bool → Bool → Bool → BitVec 5 → Instr) (d v q : BitVec 5) (c x w : Bool)
    (r : BitVec 5) : decodeBs op mk (encodeBs op d v q c x w r) = .ok (mk d v q c x w r) := by
  simp (disch := decide) only [encodeBs, decodeBs, extractLsb'_append_eq_of_le, extractLsb'_append_eq_of_add_le,
    Nat.reduceSub, extractLsb'_eq_self, bitField_append_high, bitField_append_low, bitField_flagBit]
  rfl

theorem decodeIo_encodeIo (op : BitVec 8) (mk : BitVec 5 → BitVec 8 → BitVec 5 → Instr) (d : BitVec 5) (p : BitVec 8)
    (w : BitVec 5) : decodeIo op mk (encodeIo op d p w) = .ok (mk d p w) := by
  simp (disch := decide) only [encodeIo, decodeIo, extractLsb'_append_eq_of_le, extractLsb'_append_eq_of_add_le,
    Nat.reduceSub, extractLsb'_eq_self]
  rfl

theorem decodeFlags_encode (op : BitVec 8) (mk : BitVec 5 → Instr) (d : BitVec 5) :
    decodeFlags op mk (0#19 ++ d ++ op) = .ok (mk d) := by
  simp (disch := decide) only [decodeFlags, extractLsb'_append_eq_of_le, extractLsb'_append_eq_of_add_le, Nat.reduceSub,
    extractLsb'_eq_self]
  rfl

/-- Opcodes below 0x20 are decoded by their own table (R110). -/
theorem decode_of_low {w : Word} {op : BitVec 8} (hop : w.extractLsb' 0 8 = op) (hlow : op.toNat < 0x20) :
    decode w = decodeLow op w := by
  simp [decode, hop, hlow]

theorem decodeLow_pause (k : BitVec 6) : decodeLow 0x01 (encode (.pause k)) = .ok (.pause k) := by
  simp (disch := decide) only [encode, decodeLow, extractLsb'_append_eq_of_le, extractLsb'_append_eq_of_add_le,
    Nat.reduceSub, extractLsb'_eq_self]
  rfl

theorem decodeLow_lra (d : BitVec 5) (x : Bool) (o : BitVec 16) : decodeLow 0x06 (encode (.lra d x o)) = .ok (.lra d x o) := by
  simp (disch := decide) only [encode, decodeLow, extractLsb'_append_eq_of_le, extractLsb'_append_eq_of_add_le,
    Nat.reduceSub, extractLsb'_eq_self, bitField_append_high, bitField_append_low, bitField_flagBit]
  rfl

theorem decodeLow_addi (d : BitVec 5) (h c s : Bool) (i : BitVec 16) :
    decodeLow 0x08 (encode (.addi d h c s i)) = .ok (.addi d h c s i) := by
  simp (disch := decide) only [encode, decodeLow, extractLsb'_append_eq_of_le, extractLsb'_append_eq_of_add_le,
    Nat.reduceSub, extractLsb'_eq_self, bitField_append_high, bitField_append_low, bitField_flagBit]
  rfl

theorem decodeLow_jmp (c : Cond) (l : BitVec 5) (o : BitVec 15) : decodeLow 0x10 (encode (.jmp c l o)) = .ok (.jmp c l o) := by
  simp (disch := decide) only [encode, decodeLow, extractLsb'_append_eq_of_le, extractLsb'_append_eq_of_add_le,
    Nat.reduceSub, extractLsb'_eq_self, ofBits_toBits_cond]
  rfl

theorem decodeLow_jmpr (c : Cond) (l r : BitVec 5) : decodeLow 0x11 (encode (.jmpr c l r)) = .ok (.jmpr c l r) := by
  simp (disch := decide) only [encode, decodeLow, extractLsb'_append_eq_of_le, extractLsb'_append_eq_of_add_le,
    Nat.reduceSub, extractLsb'_eq_self, ofBits_toBits_cond]
  rfl

/-! ### The CPI group -/

/-- Opcodes 0x20 to 0x3F are the CPI group (R240). -/
theorem decode_of_cpiGroup {w : Word} {op : BitVec 8} (hop : w.extractLsb' 0 8 = op) (hgroup : op.extractLsb' 5 3 = 1) :
    decode w = .ok (decodeCpi w) := by
  have hbounds : ∀ o : BitVec 8, o.extractLsb' 5 3 = 1 → ¬ o.toNat < 0x20 ∧ o.toNat < 0x40 := by decide
  obtain ⟨hge, hlt⟩ := hbounds op hgroup
  simp only [decode, hop, hge, hlt, if_true, if_false]

/-- Format F-CPI: bit 3 of the opcode chooses between CPIx and NCPIx. -/
theorem decodeCpi_encodeCpi (op : BitVec 8) (f : BitVec 4) (p : BitVec 20) (hshort : bitField op 4 = false) :
    decodeCpi (encodeCpi op f p) =
      if bitField op 3 then .ncpiOf (op.extractLsb' 0 3) f p else .cpiOf (op.extractLsb' 0 3) f p := by
  simp (disch := decide) only [encodeCpi, decodeCpi, extractLsb'_append_eq_of_le, extractLsb'_append_eq_of_add_le,
    Nat.reduceSub, extractLsb'_eq_self, bitField_append_low, hshort]
  cases bitField op 3 <;> rfl

/-- Format F-CPIEF: bit 3 of the opcode chooses between CPIxEF and NCPIxEF. -/
theorem decodeCpi_encodeCpief (op : BitVec 8) (f : BitVec 6) (p : BitVec 18) (hlong : bitField op 4 = true) :
    decodeCpi (encodeCpief op f p) =
      if bitField op 3 then .ncpiefOf (op.extractLsb' 0 3) f p else .cpiefOf (op.extractLsb' 0 3) f p := by
  simp (disch := decide) only [encodeCpief, decodeCpi, extractLsb'_append_eq_of_le, extractLsb'_append_eq_of_add_le,
    Nat.reduceSub, extractLsb'_eq_self, bitField_append_low, hlong]
  cases bitField op 3 <;> rfl

/-- An opcode of the group: its five high bits say the form, and its three low ones are the slot (R240). -/
theorem cpiGroup_opcode (form : BitVec 5) (x : BitVec 3) (hform : form.extractLsb' 2 3 = 1) :
    (form ++ x : BitVec 8).extractLsb' 5 3 = 1 ∧ (form ++ x : BitVec 8).extractLsb' 0 3 = x ∧
      bitField (form ++ x : BitVec 8) 4 = bitField form 1 ∧ bitField (form ++ x : BitVec 8) 3 = bitField form 0 := by
  refine ⟨?_, BitVec.extractLsb'_append_eq_right, bitField_append_high form x (by decide),
    bitField_append_high form x (by decide)⟩
  rw [extractLsb'_append_eq_of_le (by decide)]
  exact hform

/-- The word of CPIx or NCPIx decodes to it. -/
theorem decode_encodeCpi (form : BitVec 5) (x : BitVec 3) (f : BitVec 4) (p : BitVec 20)
    (hform : form.extractLsb' 2 3 = 1) (hshort : bitField form 1 = false) :
    decode (encodeCpi (form ++ x) f p) = .ok (if bitField form 0 then .ncpiOf x f p else .cpiOf x f p) := by
  obtain ⟨hgroup, hslot, hbit4, hbit3⟩ := cpiGroup_opcode form x hform
  have hop : (encodeCpi (form ++ x) f p).extractLsb' 0 8 = form ++ x := Laws.Encoding.lowByte _ _
  rw [decode_of_cpiGroup hop hgroup, decodeCpi_encodeCpi _ _ _ (hbit4.trans hshort), hslot, hbit3]

/-- The word of CPIxEF or NCPIxEF decodes to it. -/
theorem decode_encodeCpief (form : BitVec 5) (x : BitVec 3) (f : BitVec 6) (p : BitVec 18)
    (hform : form.extractLsb' 2 3 = 1) (hlong : bitField form 1 = true) :
    decode (encodeCpief (form ++ x) f p) = .ok (if bitField form 0 then .ncpiefOf x f p else .cpiefOf x f p) := by
  obtain ⟨hgroup, hslot, hbit4, hbit3⟩ := cpiGroup_opcode form x hform
  have hop : (encodeCpief (form ++ x) f p).extractLsb' 0 8 = form ++ x := Laws.Encoding.lowByte _ _
  rw [decode_of_cpiGroup hop hgroup, decodeCpi_encodeCpief _ _ _ (hbit4.trans hlong), hslot, hbit3]

theorem decode_cpiOf (x : BitVec 3) (f : BitVec 4) (p : BitVec 20) :
    decode (encodeCpi (0b00100#5 ++ x) f p) = .ok (Instr.cpiOf x f p) := decode_encodeCpi _ x f p rfl rfl

theorem decode_ncpiOf (x : BitVec 3) (f : BitVec 4) (p : BitVec 20) :
    decode (encodeCpi (0b00101#5 ++ x) f p) = .ok (Instr.ncpiOf x f p) := decode_encodeCpi _ x f p rfl rfl

theorem decode_cpiefOf (x : BitVec 3) (f : BitVec 6) (p : BitVec 18) :
    decode (encodeCpief (0b00110#5 ++ x) f p) = .ok (Instr.cpiefOf x f p) := decode_encodeCpief _ x f p rfl rfl

theorem decode_ncpiefOf (x : BitVec 3) (f : BitVec 6) (p : BitVec 18) :
    decode (encodeCpief (0b00111#5 ++ x) f p) = .ok (Instr.ncpiefOf x f p) := decode_encodeCpief _ x f p rfl rfl

/-! ### Decoding what was encoded -/

/-- Every word carries its instruction's opcode (R101). -/
theorem opcode_encode (i : Instr) : (encode i).extractLsb' 0 8 = Laws.Encoding.opcode i := by
  cases i with
  | halt => exact Laws.Encoding.halt
  | stop => exact Laws.Encoding.stop
  | _ => exact Laws.Encoding.lowByte _ _

/-- Decoding the word of a CPU instruction gives it back. -/
theorem decode_encode {i : Instr} (hcpu : i.toUnit = none) : decode (encode i) = .ok i := by
  have hop := opcode_encode i
  cases i with
  | und00 p => rw [decode_of_opcode_00 hop, encode, BitVec.extractLsb'_append_eq_left]
  | undFF p => rw [decode_of_opcode_FF hop, encode, BitVec.extractLsb'_append_eq_left]
  | pause k => exact (decode_of_low (op := 0x01) hop (by decide)).trans (decodeLow_pause k)
  | mov d s l c r m => exact (decode_of_low (op := 0x02) hop (by decide)).trans (decodeMov_encode d s l c r m)
  | st d s w p => exact (decode_of_low (op := 0x03) hop (by decide)).trans (decodeMem_encodeMem _ _ d s w p)
  | ld d s w p => exact (decode_of_low (op := 0x04) hop (by decide)).trans (decodeMem_encodeMem _ _ d s w p)
  | lra d x o => exact (decode_of_low (op := 0x06) hop (by decide)).trans (decodeLow_lra d x o)
  | addi d h c s i => exact (decode_of_low (op := 0x08) hop (by decide)).trans (decodeLow_addi d h c s i)
  | add d a b c s p => exact (decode_of_low (op := 0x09) hop (by decide)).trans (decodeAlu_encodeAlu _ _ d a b c s p)
  | sub d a b c s p => exact (decode_of_low (op := 0x0A) hop (by decide)).trans (decodeAlu_encodeAlu _ _ d a b c s p)
  | and d a b c s p => exact (decode_of_low (op := 0x0B) hop (by decide)).trans (decodeAlu_encodeAlu _ _ d a b c s p)
  | or d a b c s p => exact (decode_of_low (op := 0x0C) hop (by decide)).trans (decodeAlu_encodeAlu _ _ d a b c s p)
  | xor d a b c s p => exact (decode_of_low (op := 0x0D) hop (by decide)).trans (decodeAlu_encodeAlu _ _ d a b c s p)
  | bsl d v q c x w r => exact (decode_of_low (op := 0x0E) hop (by decide)).trans (decodeBs_encodeBs _ _ d v q c x w r)
  | bsr d v q c x w r => exact (decode_of_low (op := 0x0F) hop (by decide)).trans (decodeBs_encodeBs _ _ d v q c x w r)
  | jmp c l o => exact (decode_of_low (op := 0x10) hop (by decide)).trans (decodeLow_jmp c l o)
  | jmpr c l r => exact (decode_of_low (op := 0x11) hop (by decide)).trans (decodeLow_jmpr c l r)
  | inp d p w => exact (decode_of_low (op := 0x14) hop (by decide)).trans (decodeIo_encodeIo _ _ d p w)
  | out s p w => exact (decode_of_low (op := 0x15) hop (by decide)).trans (decodeIo_encodeIo _ _ s p w)
  | ldflags d => exact (decode_of_low (op := 0x18) hop (by decide)).trans (decodeFlags_encode _ _ d)
  | stflags s => exact (decode_of_low (op := 0x19) hop (by decide)).trans (decodeFlags_encode _ _ s)
  | cpi0 f p => exact decode_cpiOf 0 f p
  | cpi1 f p => exact decode_cpiOf 1 f p
  | cpi2 f p => exact decode_cpiOf 2 f p
  | cpi3 f p => exact decode_cpiOf 3 f p
  | cpi4 f p => exact decode_cpiOf 4 f p
  | cpi5 f p => exact decode_cpiOf 5 f p
  | cpi6 f p => exact decode_cpiOf 6 f p
  | cpi7 f p => exact decode_cpiOf 7 f p
  | ncpi0 f p => exact decode_ncpiOf 0 f p
  | ncpi1 f p => exact decode_ncpiOf 1 f p
  | ncpi2 f p => exact decode_ncpiOf 2 f p
  | ncpi3 f p => exact decode_ncpiOf 3 f p
  | ncpi4 f p => exact decode_ncpiOf 4 f p
  | ncpi5 f p => exact decode_ncpiOf 5 f p
  | ncpi6 f p => exact decode_ncpiOf 6 f p
  | ncpi7 f p => exact decode_ncpiOf 7 f p
  | cpi0ef f p => exact decode_cpiefOf 0 f p
  | cpi1ef f p => exact decode_cpiefOf 1 f p
  | cpi2ef f p => exact decode_cpiefOf 2 f p
  | cpi3ef f p => exact decode_cpiefOf 3 f p
  | cpi4ef f p => exact decode_cpiefOf 4 f p
  | cpi5ef f p => exact decode_cpiefOf 5 f p
  | cpi6ef f p => exact decode_cpiefOf 6 f p
  | cpi7ef f p => exact decode_cpiefOf 7 f p
  | ncpi0ef f p => exact decode_ncpiefOf 0 f p
  | ncpi1ef f p => exact decode_ncpiefOf 1 f p
  | ncpi2ef f p => exact decode_ncpiefOf 2 f p
  | ncpi3ef f p => exact decode_ncpiefOf 3 f p
  | ncpi4ef f p => exact decode_ncpiefOf 4 f p
  | ncpi5ef f p => exact decode_ncpiefOf 5 f p
  | ncpi6ef f p => exact decode_ncpiefOf 6 f p
  | ncpi7ef f p => exact decode_ncpiefOf 7 f p
  | halt => rfl
  | stop => rfl
  | fpause | fpmov | cvtf2f | cvti2f | cvtf2i | fadd | fsub | fmul | ffma => cases hcpu

/-- The unit decodes an encoded unit function to it (R278). -/
theorem decodeUnit_encodeUnit (u : UnitInstr) : decodeUnit (encodeUnit u).1 (encodeUnit u).2 = .instr u := by
  cases u <;>
  · simp (disch := decide) only [encodeUnit, decodeUnit, decodeArith, extractLsb'_append_eq_of_le,
      extractLsb'_append_eq_of_add_le, Nat.reduceSub, extractLsb'_eq_self, bitField_append_high, bitField_append_low,
      bitField_flagBit, ofBits_toBits_cond, ofBits_toBits_roundMode, ofBits_toBits_floatFormat]
    rfl

/-- A unit function's word is the CPIn that issues it (R242, R278). -/
theorem encode_toInstr (n : BitVec 3) (u : UnitInstr) : encode (u.toInstr n) = encodeIssue n u := by
  cases u <;> rfl

/-- Every function number of R278 fits the four bits of a CPIx. -/
theorem encodeUnit_function (u : UnitInstr) : ((encodeUnit u).1.extractLsb' 0 4).setWidth 6 = (encodeUnit u).1 := by
  cases u <;> rfl

/-- Settles O18: `decode_encode` for the CPU, `decodeUnit_encodeUnit` for the unit, and `decode_cpiOf` for the word that issues
a unit function. -/
theorem decodeEncode : Obligations.DecodeEncode := by
  unfold Obligations.DecodeEncode
  refine ⟨fun _ => decode_encode, fun n u => ⟨decodeUnit_encodeUnit u, _, encodeUnit_function u, ?_⟩⟩
  rw [encode_toInstr, encodeIssue, decode_cpiOf]

/-! ### From the fields of a word back to the word -/

theorem encode_of_decodeMov {w : Word} {i : Instr} (hop : w.extractLsb' 0 8 = 0x02#8) (h : decodeMov w = .ok i) :
    encode i = w := by
  obtain ⟨hzero, rfl⟩ := accept_ok h
  obtain ⟨hlow, hhigh⟩ : w.extractLsb' 18 2 = 0#2 ∧ w.extractLsb' 30 2 = 0#2 := by simpa using hzero
  rw [encode, flagBit_bitField, flagBit_bitField, Machine.toBits_ofBits_cond, ← hop]
  nth_rw 1 [← hhigh]
  rw [← hlow]
  simp (disch := decide) only [extractLsb'_append_extractLsb'_eq_extractLsb']
  exact extractLsb'_eq_self

theorem encode_of_decodeMem {op : BitVec 8} {mk : BitVec 5 → BitVec 5 → BitVec 2 → Bool → Instr} {w : Word} {i : Instr}
    (hmk : ∀ d s z p, encode (mk d s z p) = encodeMem op d s z p) (hop : w.extractLsb' 0 8 = op)
    (h : decodeMem op mk w = .ok i) : encode i = w := by
  obtain ⟨hzero, rfl⟩ := accept_ok h
  have hmbz : w.extractLsb' 20 11 = 0#11 := by simpa using hzero
  rw [hmk, encodeMem, flagBit_bitField, ← hop, ← hmbz]
  simp (disch := decide) only [extractLsb'_append_extractLsb'_eq_extractLsb']
  exact extractLsb'_eq_self

theorem encode_of_decodeAlu {op : BitVec 8} {mk : BitVec 5 → BitVec 5 → BitVec 5 → Bool → BitVec 5 → Bool → Instr}
    {w : Word} {i : Instr} (hmk : ∀ d a b c s p, encode (mk d a b c s p) = encodeAlu op d a b c s p)
    (hop : w.extractLsb' 0 8 = op) (h : decodeAlu op mk w = .ok i) : encode i = w := by
  obtain ⟨hzero, rfl⟩ := accept_ok h
  have hmbz : w.extractLsb' 30 2 = 0#2 := by simpa using hzero
  rw [hmk, encodeAlu, flagBit_bitField, flagBit_bitField, ← hop, ← hmbz]
  simp (disch := decide) only [extractLsb'_append_extractLsb'_eq_extractLsb']
  exact extractLsb'_eq_self

theorem encode_of_decodeBs {op : BitVec 8}
    {mk : BitVec 5 → BitVec 5 → BitVec 5 → Bool → Bool → Bool → BitVec 5 → Instr} {w : Word} {i : Instr}
    (hmk : ∀ d v q c x z r, encode (mk d v q c x z r) = encodeBs op d v q c x z r)
    (hop : w.extractLsb' 0 8 = op) (h : decodeBs op mk w = .ok i) : encode i = w := by
  obtain ⟨hzero, rfl⟩ := accept_ok h
  have hmbz : w.extractLsb' 25 1 = 0#1 := by simpa using hzero
  rw [hmk, encodeBs, flagBit_bitField, flagBit_bitField, flagBit_bitField, ← hop, ← hmbz]
  simp (disch := decide) only [extractLsb'_append_extractLsb'_eq_extractLsb']
  exact extractLsb'_eq_self

theorem encode_of_decodeIo {op : BitVec 8} {mk : BitVec 5 → BitVec 8 → BitVec 5 → Instr} {w : Word} {i : Instr}
    (hmk : ∀ d p z, encode (mk d p z) = encodeIo op d p z) (hop : w.extractLsb' 0 8 = op)
    (h : decodeIo op mk w = .ok i) : encode i = w := by
  obtain ⟨hzero, rfl⟩ := accept_ok h
  have hmbz : w.extractLsb' 21 6 = 0#6 := by simpa using hzero
  rw [hmk, encodeIo, ← hop, ← hmbz]
  simp (disch := decide) only [extractLsb'_append_extractLsb'_eq_extractLsb']
  exact extractLsb'_eq_self

theorem encode_of_decodeFlags {op : BitVec 8} {mk : BitVec 5 → Instr} {w : Word} {i : Instr}
    (hmk : ∀ d, encode (mk d) = 0#19 ++ d ++ op) (hop : w.extractLsb' 0 8 = op)
    (h : decodeFlags op mk w = .ok i) : encode i = w := by
  obtain ⟨hzero, rfl⟩ := accept_ok h
  have hmbz : w.extractLsb' 13 19 = 0#19 := by simpa using hzero
  rw [hmk, ← hop, ← hmbz]
  simp (disch := decide) only [extractLsb'_append_extractLsb'_eq_extractLsb']
  exact extractLsb'_eq_self

theorem encode_pause_of_fields {w : Word} (hop : w.extractLsb' 0 8 = 0x01#8) (hmbz : w.extractLsb' 14 18 = 0#18) :
    encode (.pause (w.extractLsb' 8 6)) = w := by
  rw [encode, ← hop, ← hmbz]
  simp (disch := decide) only [extractLsb'_append_extractLsb'_eq_extractLsb']
  exact extractLsb'_eq_self

theorem encode_lra_of_fields {w : Word} (hop : w.extractLsb' 0 8 = 0x06#8) (hmbz : w.extractLsb' 14 2 = 0#2) :
    encode (.lra (w.extractLsb' 8 5) (bitField w 13) (w.extractLsb' 16 16)) = w := by
  rw [encode, flagBit_bitField, ← hop, ← hmbz]
  simp (disch := decide) only [extractLsb'_append_extractLsb'_eq_extractLsb']
  exact extractLsb'_eq_self

theorem encode_addi_of_fields {w : Word} (hop : w.extractLsb' 0 8 = 0x08#8) :
    encode (.addi (w.extractLsb' 8 5) (bitField w 13) (bitField w 14) (bitField w 15) (w.extractLsb' 16 16)) = w := by
  rw [encode, flagBit_bitField, flagBit_bitField, flagBit_bitField, ← hop]
  simp (disch := decide) only [extractLsb'_append_extractLsb'_eq_extractLsb']
  exact extractLsb'_eq_self

theorem encode_jmp_of_fields {w : Word} (hop : w.extractLsb' 0 8 = 0x10#8) :
    encode (.jmp (Cond.ofBits (w.extractLsb' 8 4)) (w.extractLsb' 12 5) (w.extractLsb' 17 15)) = w := by
  rw [encode, Machine.toBits_ofBits_cond, ← hop]
  simp (disch := decide) only [extractLsb'_append_extractLsb'_eq_extractLsb']
  exact extractLsb'_eq_self

theorem encode_jmpr_of_fields {w : Word} (hop : w.extractLsb' 0 8 = 0x11#8) (hmbz : w.extractLsb' 22 10 = 0#10) :
    encode (.jmpr (Cond.ofBits (w.extractLsb' 8 4)) (w.extractLsb' 12 5) (w.extractLsb' 17 5)) = w := by
  rw [encode, Machine.toBits_ofBits_cond, ← hop, ← hmbz]
  simp (disch := decide) only [extractLsb'_append_extractLsb'_eq_extractLsb']
  exact extractLsb'_eq_self

/-- A word is its 24 high bits and its opcode. -/
theorem payload_append_opcode {w : Word} {op : BitVec 8} (hop : w.extractLsb' 0 8 = op) : w.extractLsb' 8 24 ++ op = w := by
  rw [← hop, extractLsb'_append_extractLsb'_eq_extractLsb' (by decide)]
  exact extractLsb'_eq_self

/-- Opcodes below 0x20, row by row (R110). -/
theorem encode_of_decodeLow {op : BitVec 8} {w : Word} {i : Instr} (hop : w.extractLsb' 0 8 = op)
    (h : decodeLow op w = .ok i) : encode i = w := by
  have hopcode {o : BitVec 8} (ho : op.toNat = o.toNat) : op = o := BitVec.eq_of_toNat_eq ho
  unfold decodeLow at h
  split at h
  case h_1 e => cases hopcode (o := 0x00) e; cases h; exact payload_append_opcode hop
  case h_2 e =>
    cases hopcode (o := 0x01) e
    obtain ⟨hzero, rfl⟩ := accept_ok h
    exact encode_pause_of_fields hop (by simpa using hzero)
  case h_3 e => cases hopcode (o := 0x02) e; exact encode_of_decodeMov hop h
  case h_4 e => cases hopcode (o := 0x03) e; exact encode_of_decodeMem (fun _ _ _ _ => rfl) hop h
  case h_5 e => cases hopcode (o := 0x04) e; exact encode_of_decodeMem (fun _ _ _ _ => rfl) hop h
  case h_6 e =>
    cases hopcode (o := 0x06) e
    obtain ⟨hzero, rfl⟩ := accept_ok h
    exact encode_lra_of_fields hop (by simpa using hzero)
  case h_7 e => cases hopcode (o := 0x08) e; cases h; exact encode_addi_of_fields hop
  case h_8 e => cases hopcode (o := 0x09) e; exact encode_of_decodeAlu (fun _ _ _ _ _ _ => rfl) hop h
  case h_9 e => cases hopcode (o := 0x0A) e; exact encode_of_decodeAlu (fun _ _ _ _ _ _ => rfl) hop h
  case h_10 e => cases hopcode (o := 0x0B) e; exact encode_of_decodeAlu (fun _ _ _ _ _ _ => rfl) hop h
  case h_11 e => cases hopcode (o := 0x0C) e; exact encode_of_decodeAlu (fun _ _ _ _ _ _ => rfl) hop h
  case h_12 e => cases hopcode (o := 0x0D) e; exact encode_of_decodeAlu (fun _ _ _ _ _ _ => rfl) hop h
  case h_13 e => cases hopcode (o := 0x0E) e; exact encode_of_decodeBs (fun _ _ _ _ _ _ _ => rfl) hop h
  case h_14 e => cases hopcode (o := 0x0F) e; exact encode_of_decodeBs (fun _ _ _ _ _ _ _ => rfl) hop h
  case h_15 e => cases hopcode (o := 0x10) e; cases h; exact encode_jmp_of_fields hop
  case h_16 e =>
    cases hopcode (o := 0x11) e
    obtain ⟨hzero, rfl⟩ := accept_ok h
    exact encode_jmpr_of_fields hop (by simpa using hzero)
  case h_17 e => cases hopcode (o := 0x14) e; exact encode_of_decodeIo (fun _ _ _ => rfl) hop h
  case h_18 e => cases hopcode (o := 0x15) e; exact encode_of_decodeIo (fun _ _ _ => rfl) hop h
  case h_19 e => cases hopcode (o := 0x18) e; exact encode_of_decodeFlags (fun _ => rfl) hop h
  case h_20 e => cases hopcode (o := 0x19) e; exact encode_of_decodeFlags (fun _ => rfl) hop h
  case h_21 => cases h

/-! ### The CPI group, from its fields -/

theorem encode_cpiOf (x : BitVec 3) (f : BitVec 4) (p : BitVec 20) :
    encode (.cpiOf x f p) = encodeCpi (0b00100#5 ++ x) f p := by
  rcases Machine.slot_cases x with h | h | h | h | h | h | h | h <;> subst h <;> rfl

theorem encode_ncpiOf (x : BitVec 3) (f : BitVec 4) (p : BitVec 20) :
    encode (.ncpiOf x f p) = encodeCpi (0b00101#5 ++ x) f p := by
  rcases Machine.slot_cases x with h | h | h | h | h | h | h | h <;> subst h <;> rfl

theorem encode_cpiefOf (x : BitVec 3) (f : BitVec 6) (p : BitVec 18) :
    encode (.cpiefOf x f p) = encodeCpief (0b00110#5 ++ x) f p := by
  rcases Machine.slot_cases x with h | h | h | h | h | h | h | h <;> subst h <;> rfl

theorem encode_ncpiefOf (x : BitVec 3) (f : BitVec 6) (p : BitVec 18) :
    encode (.ncpiefOf x f p) = encodeCpief (0b00111#5 ++ x) f p := by
  rcases Machine.slot_cases x with h | h | h | h | h | h | h | h <;> subst h <;> rfl

/-- A word of the CPI group carries 1 in bits 7:5. -/
theorem cpiGroup_of_bounds {w : Word} (hge : ¬ (w.extractLsb' 0 8).toNat < 0x20) (hlt : (w.extractLsb' 0 8).toNat < 0x40) :
    w.extractLsb' 5 3 = 1#3 := by
  have hbounds : ∀ o : BitVec 8, ¬ o.toNat < 0x20 → o.toNat < 0x40 → o.extractLsb' 5 3 = 1#3 := by decide
  rw [← hbounds _ hge hlt, BitVec.extractLsb'_extractLsb'_of_le (by decide)]

/-- The form of a word of the CPI group, from the group number and the two bits that choose it. -/
theorem cpiForm_of_fields {w : Word} {b4 b3 : Bool} (hgroup : w.extractLsb' 5 3 = 1#3) (h4 : bitField w 4 = b4)
    (h3 : bitField w 3 = b3) : w.extractLsb' 3 5 = 1#3 ++ flagBit b4 ++ flagBit b3 := by
  rw [← hgroup, ← h4, ← h3, flagBit_bitField, flagBit_bitField]
  simp (disch := decide) only [extractLsb'_append_extractLsb'_eq_extractLsb']

/-- A CPI word whose form is `form` is put together from its fields. -/
theorem encodeCpi_of_fields {w : Word} {form : BitVec 5} (hform : w.extractLsb' 3 5 = form) :
    encodeCpi (form ++ w.extractLsb' 0 3) (w.extractLsb' 8 4) (w.extractLsb' 12 20) = w := by
  rw [encodeCpi, ← hform]
  simp (disch := decide) only [extractLsb'_append_extractLsb'_eq_extractLsb']
  exact extractLsb'_eq_self

theorem encodeCpief_of_fields {w : Word} {form : BitVec 5} (hform : w.extractLsb' 3 5 = form) :
    encodeCpief (form ++ w.extractLsb' 0 3) (w.extractLsb' 8 6) (w.extractLsb' 14 18) = w := by
  rw [encodeCpief, ← hform]
  simp (disch := decide) only [extractLsb'_append_extractLsb'_eq_extractLsb']
  exact extractLsb'_eq_self

/-- A word of the CPI group is the encoding of what it decodes to: the four forms. -/
theorem encode_decodeCpi {w : Word} (hgroup : w.extractLsb' 5 3 = 1#3) : encode (decodeCpi w) = w := by
  unfold decodeCpi
  split
  case h_1 h4 h3 => exact (encode_cpiOf _ _ _).trans (encodeCpi_of_fields (cpiForm_of_fields hgroup h4 h3))
  case h_2 h4 h3 => exact (encode_ncpiOf _ _ _).trans (encodeCpi_of_fields (cpiForm_of_fields hgroup h4 h3))
  case h_3 h4 h3 => exact (encode_cpiefOf _ _ _).trans (encodeCpief_of_fields (cpiForm_of_fields hgroup h4 h3))
  case h_4 h4 h3 => exact (encode_ncpiefOf _ _ _).trans (encodeCpief_of_fields (cpiForm_of_fields hgroup h4 h3))

/-! ### Encoding what was decoded -/

/-- HALT and STOP carry nothing but their opcode. -/
theorem append_opcode_of_fields {w : Word} {op : BitVec 8} (hop : w.extractLsb' 0 8 = op) (hmbz : w.extractLsb' 8 24 = 0#24) :
    0#24 ++ op = w := by
  rw [← hmbz]
  exact payload_append_opcode hop

/-- A word that decodes is the encoding of what it decodes to. -/
theorem encode_of_decode {w : Word} {i : Instr} (h : decode w = .ok i) : encode i = w := by
  unfold decode at h
  dsimp only at h
  split at h
  · exact encode_of_decodeLow rfl h
  next hge =>
    split at h
    next hlt =>
      cases h
      exact encode_decodeCpi (cpiGroup_of_bounds hge hlt)
    next =>
      split at h
      next hop =>
        obtain ⟨hzero, rfl⟩ := accept_ok h
        exact append_opcode_of_fields hop (by simpa using hzero)
      next =>
        split at h
        next hop =>
          obtain ⟨hzero, rfl⟩ := accept_ok h
          exact append_opcode_of_fields hop (by simpa using hzero)
        next =>
          split at h
          next hop =>
            cases h
            exact payload_append_opcode hop
          next => cases h

/-- The payload of FADD, FSUB and FMUL (R288). -/
theorem payload_of_decodeArith {mk : BitVec 4 → BitVec 4 → BitVec 4 → Bool → RoundMode → UnitInstr} {p : BitVec 20}
    {u : UnitInstr} (h : decodeArith mk p = .instr u) :
    ∃ d a b y r, u = mk d a b y r ∧ r.toBits ++ flagBit y ++ 0#5 ++ b ++ a ++ d = p := by
  obtain ⟨hzero, rfl⟩ := acceptUnit_instr h
  have hmbz : p.extractLsb' 12 5 = 0#5 := by simpa using hzero
  refine ⟨_, _, _, _, _, rfl, ?_⟩
  rw [toBits_ofBits_roundMode, flagBit_bitField, ← hmbz]
  simp (disch := decide) only [extractLsb'_append_extractLsb'_eq_extractLsb']
  exact extractLsb'_eq_self

/-- A unit payload that decodes is the encoding of what it decodes to (R278). -/
theorem encodeUnit_of_decodeUnit {f : BitVec 6} {p : BitVec 20} {u : UnitInstr} (h : decodeUnit f p = .instr u) :
    encodeUnit u = (f, p) := by
  have hfunction {g : BitVec 6} (hg : f.toNat = g.toNat) : f = g := BitVec.eq_of_toNat_eq hg
  unfold decodeUnit at h
  dsimp only at h
  split at h
  case h_1 e =>
    cases hfunction (g := 0x00) e
    obtain ⟨hzero, rfl⟩ := acceptUnit_instr h
    have hmbz : p.extractLsb' 4 16 = 0#16 := by simpa using hzero
    rw [encodeUnit, ← hmbz]
    simp (disch := decide) only [extractLsb'_append_extractLsb'_eq_extractLsb']
    exact congrArg _ extractLsb'_eq_self
  case h_2 e =>
    cases hfunction (g := 0x01) e
    obtain ⟨hzero, rfl⟩ := acceptUnit_instr h
    have hmbz : p.extractLsb' 14 6 = 0#6 := by simpa using hzero
    rw [encodeUnit, Machine.toBits_ofBits_cond, ← hmbz]
    simp (disch := decide) only [extractLsb'_append_extractLsb'_eq_extractLsb']
    exact congrArg _ extractLsb'_eq_self
  case h_3 e =>
    cases hfunction (g := 0x04) e
    split at h
    case h_1 hf hk =>
      obtain ⟨hzero, rfl⟩ := acceptUnit_instr h
      have hmbz : p.extractLsb' 12 5 = 0#5 := by simpa using hzero
      rw [encodeUnit, toBits_of_ofBits_floatFormat hf, toBits_of_ofBits_floatFormat hk, toBits_ofBits_roundMode,
        flagBit_bitField, ← hmbz]
      simp (disch := decide) only [extractLsb'_append_extractLsb'_eq_extractLsb']
      exact congrArg _ extractLsb'_eq_self
    all_goals cases h
  case h_4 e =>
    cases hfunction (g := 0x05) e
    split at h
    case h_1 hk =>
      obtain ⟨hzero, rfl⟩ := acceptUnit_instr h
      obtain ⟨⟨hmbz3, hmbz9⟩, hmbz12⟩ : (p.extractLsb' 3 1 = 0#1 ∧ p.extractLsb' 9 1 = 0#1) ∧ p.extractLsb' 12 5 = 0#5 := by
        simpa using hzero
      rw [encodeUnit, toBits_of_ofBits_floatFormat hk, toBits_ofBits_roundMode, flagBit_bitField, flagBit_bitField, ← hmbz12]
      nth_rw 1 [← hmbz9]
      rw [← hmbz3]
      simp (disch := decide) only [extractLsb'_append_extractLsb'_eq_extractLsb']
      exact congrArg _ extractLsb'_eq_self
    case h_2 => cases h
  case h_5 e =>
    cases hfunction (g := 0x06) e
    split at h
    case h_1 hf =>
      obtain ⟨hzero, rfl⟩ := acceptUnit_instr h
      obtain ⟨hmbz7, hmbz11⟩ : p.extractLsb' 7 1 = 0#1 ∧ p.extractLsb' 11 6 = 0#6 := by simpa using hzero
      rw [encodeUnit, toBits_of_ofBits_floatFormat hf, toBits_ofBits_roundMode, flagBit_bitField, flagBit_bitField, ← hmbz11,
        ← hmbz7]
      simp (disch := decide) only [extractLsb'_append_extractLsb'_eq_extractLsb']
      exact congrArg _ extractLsb'_eq_self
    case h_2 => cases h
  case h_6 e =>
    cases hfunction (g := 0x08) e
    obtain ⟨d, a, b, y, r, rfl, hp⟩ := payload_of_decodeArith h
    exact congrArg _ hp
  case h_7 e =>
    cases hfunction (g := 0x09) e
    obtain ⟨d, a, b, y, r, rfl, hp⟩ := payload_of_decodeArith h
    exact congrArg _ hp
  case h_8 e =>
    cases hfunction (g := 0x0A) e
    obtain ⟨d, a, b, y, r, rfl, hp⟩ := payload_of_decodeArith h
    exact congrArg _ hp
  case h_9 e =>
    cases hfunction (g := 0x0B) e
    obtain ⟨hzero, rfl⟩ := acceptUnit_instr h
    have hmbz : p.extractLsb' 16 1 = 0#1 := by simpa using hzero
    rw [encodeUnit, toBits_ofBits_roundMode, flagBit_bitField, ← hmbz]
    simp (disch := decide) only [extractLsb'_append_extractLsb'_eq_extractLsb']
    exact congrArg _ extractLsb'_eq_self
  case h_10 => cases h

/-- Settles O19: the CPU's words by `encode_of_decode`, the unit's payloads by `encodeUnit_of_decodeUnit`. -/
theorem encodeDecode : Obligations.EncodeDecode := by
  unfold Obligations.EncodeDecode
  exact ⟨fun _ _ => encode_of_decode, fun _ _ _ => encodeUnit_of_decodeUnit⟩

/-! ### Unassigned opcodes -/

/-- The rows of the table below 0x20 (R110). -/
def lowRows : List Nat :=
  [0x00, 0x01, 0x02, 0x03, 0x04, 0x06, 0x08, 0x09, 0x0A, 0x0B, 0x0C, 0x0D, 0x0E, 0x0F, 0x10, 0x11, 0x14, 0x15, 0x18, 0x19]

/-- Below 0x20 the decoder calls exactly the opcodes without a row unassigned. -/
theorem decodeLow_unassigned_iff (op : BitVec 8) (w : Word) :
    (∃ o, decodeLow op w = .error (.unassignedOpcode o)) ↔ op.toNat ∉ lowRows := by
  unfold decodeLow
  split
  case h_21 => simp_all [lowRows]
  all_goals
    rename_i hrow
    simp [hrow, lowRows, decodeMov, decodeMem, decodeAlu, decodeBs, decodeIo, decodeFlags, accept_ne_unassigned]

/-- The decoder calls an opcode unassigned when it is below 0x20 without a row, or from 0x42 on and not UND's 0xFF. -/
theorem decode_unassigned_iff (w : Word) : (∃ o, decode w = .error (.unassignedOpcode o)) ↔
    ((w.extractLsb' 0 8).toNat < 0x20 ∧ (w.extractLsb' 0 8).toNat ∉ lowRows) ∨
      (0x42 ≤ (w.extractLsb' 0 8).toNat ∧ (w.extractLsb' 0 8).toNat ≠ 0xFF) := by
  unfold decode
  dsimp only
  generalize w.extractLsb' 0 8 = op
  split
  next hlow => rw [decodeLow_unassigned_iff, and_iff_right hlow, or_iff_left (by omega)]
  next hlow =>
    rw [iff_false_intro (mt And.left hlow), false_or]
    split
    next hgroup => simp; omega
    next hgroup =>
      split
      next hop => simp [hop, accept_ne_unassigned]
      next h40 =>
        split
        next hop => simp [hop, accept_ne_unassigned]
        next h41 =>
          have h42 : 0x42 ≤ op.toNat := by
            have h40' : op.toNat ≠ 0x40 := fun h => h40 (BitVec.eq_of_toNat_eq h)
            have h41' : op.toNat ≠ 0x41 := fun h => h41 (BitVec.eq_of_toNat_eq h)
            omega
          split
          next hop => simp [hop]
          next hop =>
            have hFF : op.toNat ≠ 0xFF := fun h => hop (BitVec.eq_of_toNat_eq h)
            simp [h42, hFF]

/-- Settles O20: the two ways `decode_unassigned_iff` gives, in the words of R111; a check of every opcode byte. -/
theorem unassignedOpcodes : Obligations.UnassignedOpcodes := by
  unfold Obligations.UnassignedOpcodes
  intro w
  have hbytes : ∀ op : BitVec 8,
      (op.toNat < 0x20 ∧ op.toNat ∉ lowRows) ∨ (0x42 ≤ op.toNat ∧ op.toNat ≠ 0xFF) ↔
        op ∈ [0x05#8, 0x07#8, 0x12#8, 0x13#8, 0x16#8, 0x17#8] ∨ (0x1A ≤ op.toNat ∧ op.toNat ≤ 0x1F) ∨
          (0x42 ≤ op.toNat ∧ op.toNat ≤ 0xFE) := by decide
  rw [decode_unassigned_iff, hbytes]

/-- Settles O17: each word by computing its fields. -/
theorem decodeWrittenWords : Obligations.DecodeWrittenWords := by
  unfold Obligations.DecodeWrittenWords
  decide

/-! ### Words are CPU instructions -/

/-- An instruction with a slot and a unit function is that function in that slot. -/
theorem eq_toInstr_of_toUnit {i : Instr} {n : BitVec 3} {u : UnitInstr} (h : i.toUnit = some (n, u)) : i = u.toInstr n := by
  cases i <;> cases h <;> rfl

theorem toUnit_cpiOf (x : BitVec 3) (f : BitVec 4) (p : BitVec 20) : (Instr.cpiOf x f p).toUnit = none := by
  rcases Machine.slot_cases x with h | h | h | h | h | h | h | h <;> subst h <;> rfl

/-- A word that decodes is a CPU instruction's: the word of a unit function decodes to the CPIn that issues it. -/
theorem toUnit_of_decode {w : Word} {i : Instr} (h : decode w = .ok i) : i.toUnit = none := by
  have hfixed : decode (encode i) = .ok i := by rw [encode_of_decode h, h]
  cases hunit : i.toUnit with
  | none => rfl
  | some nu =>
    rw [eq_toInstr_of_toUnit hunit, encode_toInstr, encodeIssue, decode_cpiOf] at hfixed
    rw [← eq_toInstr_of_toUnit hunit] at hfixed
    rw [← Except.ok.inj hfixed, toUnit_cpiOf] at hunit
    cases hunit

end Encoding

end Sys2Proof

/-! PROOFS. The boundary between instructions (60_exceptions.md R352 to R360, 46_halt_stop.md, 70_reset_and_hazards.md): RESET, bad
table entries, which interrupt is taken and when, what arrives there, and what a fetch that gives no instruction does. -/

namespace Sys2Proof.Machine

/-! ### RESET -/

/-- Settles O2: the form of the state by evaluation, the slots by what reset leaves in each. -/
theorem resetMeetsInvariants : Obligations.ResetMeetsInvariants := by
  unfold Obligations.ResetMeetsInvariants
  refine ⟨⟨State.wf_reset, by decide, by decide, by decide, by decide, by decide⟩, fun n _ => ⟨?_, ?_⟩⟩
  · rw [State.reset_cop]
    rfl
  · exact State.reset_pendingUnitError ⟨n.toNat, n.isLt⟩

/-- RESET depends on the fields it keeps and the counter of free values only (log 3, log 4). -/
theorem State.warmReset_congr {s s' : State} (hmem : s'.mem = s.mem) (hcfg : s'.cfg = s.cfg)
    (hstored : s'.storedTo = s.storedTo) (hschedule : s'.schedule = s.schedule) (horder : s'.intOrder = s.intOrder)
    (hanswers : s'.portAnswers = s.portAnswers) (htrace : s'.ioTrace = s.ioTrace) (hfresh : s'.fresh = s.fresh) :
    s'.warmReset = s.warmReset := by
  simp only [State.warmReset, hmem, hcfg, hstored, hschedule, horder, hanswers, htrace, hfresh]

/-- Settles O5: an external RESET and an exception under t = 1 are the same `State.warmReset`. -/
theorem resetForgetsRegisters : Obligations.ResetForgetsRegisters := by
  unfold Obligations.ResetForgetsRegisters
  refine ⟨fun s => ⟨s.warmReset, rfl, s.warmReset_isReset⟩, fun s e ht => State.raise_of_sysT ht e, ?_⟩
  intro s s' hmem hcfg hstored hschedule horder hanswers htrace hfresh
  exact congrArg Host.Outcome.next (State.warmReset_congr hmem hcfg hstored hschedule horder hanswers htrace hfresh)

/-- What RESET makes of a state it makes of every state with its memory and constants, as far as R390 says. -/
theorem State.IsReset.of_congr {s u t : State} (hmem : u.mem = s.mem) (hcfg : u.cfg = s.cfg) (h : u.IsReset t) : s.IsReset t :=
  { h with
    memory := fun a => (h.memory a).trans (State.byteAt_congr hmem a)
    constants := h.constants.trans hcfg }

/-! ### Bad table entries -/

/-- A table entry depends only on memory, the constants and `inttab`. -/
theorem State.VectorTo.congr {s u : State} {n : Nat} {a : Word} (hmem : u.mem = s.mem) (hcfg : u.cfg = s.cfg)
    (hinttab : u.inttab = s.inttab) (h : s.VectorTo n a) : u.VectorTo n a := by
  obtain ⟨haligned, hlow, hhigh⟩ := h
  refine ⟨haligned, ?_, ?_⟩
  · rw [hinttab, State.load_congr hmem hcfg, hlow]
  · rw [hinttab, State.load_congr hmem hcfg, hhigh]

/-- An entry that reads as invalid or not at all stops the machine under the default policy and resets it under EX[4] (R352). -/
theorem State.raise_of_badEntry {s : State} {e : Exc} {bad : VectorEntry} {f : Fault} (ht : s.sysT = false)
    (hread : s.readVector e.number = bad)
    (hbad : (bad = .invalid ∧ f = .invalidVector e.number) ∨ (bad = .readFault ∧ f = .vectorReadFault e.number)) :
    (s.cfg.vectorInvalid = .modelFault → s.raise e = .fault f) ∧
      (s.cfg.vectorInvalid = .ex4 → ∃ t, s.raise e = .next t ∧ s.IsReset t) := by
  obtain ⟨rfl, rfl⟩ | ⟨rfl, rfl⟩ := hbad
  · refine ⟨fun hp => by simp [State.raise, ht, hread, hp], fun hp => ⟨_, ?_, s.warmReset_isReset⟩⟩
    simp [State.raise, ht, hread, hp]
  · refine ⟨fun hp => by simp [State.raise, ht, hread, hp], fun hp => ⟨_, ?_, s.warmReset_isReset⟩⟩
    simp [State.raise, ht, hread, hp]

/-- The state in which the entry of interrupt v reads its table: the indication cleared, the CPU running, the interrupted
address saved (R353, log 35). -/
def State.wokenFor (s : State) (v : Nat) : State := ((s.clearPending v).setStatus .running).saveReturn

/-- Of the fields an exception entry reads, waking changes none. -/
theorem State.wokenFor_frame (s : State) (v : Nat) : s.wokenFor v =
    { s with
      intret := s.pc, status := .running, pendingNmi := (s.wokenFor v).pendingNmi,
      pendingUnitError := (s.wokenFor v).pendingUnitError, pendingIrq := (s.wokenFor v).pendingIrq } :=
  congrArg (fun u => (u.setStatus .running).saveReturn) (s.clearPending_frame v)

@[simp] theorem State.wokenFor_pc (s : State) (v : Nat) : (s.wokenFor v).pc = s.pc := by
  rw [State.wokenFor_frame]
@[simp] theorem State.wokenFor_mem (s : State) (v : Nat) : (s.wokenFor v).mem = s.mem := by
  rw [State.wokenFor_frame]
@[simp] theorem State.wokenFor_cfg (s : State) (v : Nat) : (s.wokenFor v).cfg = s.cfg := by
  rw [State.wokenFor_frame]
@[simp] theorem State.wokenFor_sysctl (s : State) (v : Nat) : (s.wokenFor v).sysctl = s.sysctl := by
  rw [State.wokenFor_frame]
@[simp] theorem State.wokenFor_inttab (s : State) (v : Nat) : (s.wokenFor v).inttab = s.inttab := by
  rw [State.wokenFor_frame]

/-- An invalid entry met at interrupt entry (R352, log 35). -/
theorem takeInterrupt_of_invalid {s : State} {v : Nat} (h : s.InvalidEntry v) :
    (s.cfg.vectorInvalid = .modelFault → takeInterrupt v s = .fault (.invalidVector v)) ∧
      (s.cfg.vectorInvalid = .ex4 → takeInterrupt v s = (s.wokenFor v).raise .consistency) := by
  have hread := (s.readVector_wake v v).trans (State.readVector_of_invalid h)
  have hcfg : ((s.clearPending v).setStatus .running).cfg = s.cfg := s.wokenFor_cfg v
  constructor <;>
  · intro hp
    simp only [takeInterrupt, State.interrupt, hread, hcfg, hp, State.wokenFor]

/-- An unreadable entry met at interrupt entry (R352, log 35). -/
theorem takeInterrupt_of_unreadable {s : State} {v : Nat} (h : s.UnreadableEntry v) :
    (s.cfg.vectorInvalid = .modelFault → takeInterrupt v s = .fault (.vectorReadFault v)) ∧
      (s.cfg.vectorInvalid = .ex4 → takeInterrupt v s = (s.wokenFor v).raise .busFault) := by
  have hread := (s.readVector_wake v v).trans (State.readVector_of_unreadable h)
  have hcfg : ((s.clearPending v).setStatus .running).cfg = s.cfg := s.wokenFor_cfg v
  constructor <;>
  · intro hp
    simp only [takeInterrupt, State.interrupt, hread, hcfg, hp, State.wokenFor]

/-- An exception raised at interrupt entry resets under t = 1; else its own entry decides, the interrupted address saved. -/
theorem State.wokenFor_raise (s : State) (v : Nat) (e : Exc) :
    (s.sysT = true → ∃ t, (s.wokenFor v).raise e = .next t ∧ s.IsReset t) ∧
      (∀ a, s.sysT = false → s.VectorTo e.number a →
        ∃ t, (s.wokenFor v).raise e = .next t ∧ t = { s.enterException a with
          status := .running, pendingNmi := t.pendingNmi, pendingIrq := t.pendingIrq,
          pendingUnitError := t.pendingUnitError }) := by
  have hsysT : (s.wokenFor v).sysT = s.sysT := congrArg (BitVec.getLsbD · 31) (s.wokenFor_sysctl v)
  constructor
  · intro ht
    obtain ⟨t, hraise, hreset⟩ := State.raise_isReset (hsysT.trans ht) e
    exact ⟨t, hraise, hreset.of_congr (s.wokenFor_mem v) (s.wokenFor_cfg v)⟩
  · intro a ht hv
    have hv' := hv.congr (s.wokenFor_mem v) (s.wokenFor_cfg v) (s.wokenFor_inttab v)
    exact ⟨_, State.raise_of_vectorTo (hsysT.trans ht) hv', congrArg (State.enterException · a) (s.wokenFor_frame v)⟩

/-- Settles O9: at exception entry by `State.raise_of_badEntry`, at interrupt entry by the exception raised in
`State.wokenFor`. -/
theorem badVectorEntry : Obligations.BadVectorEntry := by
  unfold Obligations.BadVectorEntry
  intro s
  refine ⟨fun e ht => ⟨fun h => ?_, fun h => ?_⟩, fun v hstatus hschedule hchosen => ?_⟩
  · exact State.raise_of_badEntry ht (State.readVector_of_invalid h) (.inl ⟨rfl, rfl⟩)
  · exact State.raise_of_badEntry ht (State.readVector_of_unreadable h) (.inr ⟨rfl, rfl⟩)
  · intro raisesInstead
    have hstep : step s = takeInterrupt v s :=
      (step_of_no_arrivals hschedule).trans (atBoundary_of_chosen hstatus hchosen)
    have hraises (e : Exc) (htaken : takeInterrupt v s = (s.wokenFor v).raise e) : raisesInstead e.number := by
      unfold raisesInstead
      rw [hstep, htaken]
      exact s.wokenFor_raise v e
    refine ⟨fun h => ?_, fun h => ?_⟩
    · obtain ⟨hfault, htaken⟩ := takeInterrupt_of_invalid h
      exact ⟨fun hp => hstep.trans (hfault hp), fun hp => hraises .consistency (htaken hp)⟩
    · obtain ⟨hfault, htaken⟩ := takeInterrupt_of_unreadable h
      exact ⟨fun hp => hstep.trans (hfault hp), fun hp => hraises .busFault (htaken hp)⟩

/-! ### Which interrupt is taken -/

/-- The chosen interrupt's gate is open (R354). -/
theorem State.gateOpen_of_chosen {s : State} {v : Nat} (h : s.chooseInterrupt = some v) : s.GateOpen v :=
  (s.deliverable_iff v).1 (List.find?_some h)

/-- An open gate makes some interrupt chosen, since the recommended order names every source (R355, R359). -/
theorem State.chosen_of_gateOpen {s : State} {v : Nat} (h : s.GateOpen v) : ∃ u, s.chooseInterrupt = some u := by
  apply Option.isSome_iff_exists.1
  rw [State.chooseInterrupt, List.find?_isSome]
  exact ⟨v, List.mem_append_right _ (recommendedOrder_mem h), (s.deliverable_iff v).2 h⟩

/-- With every gate closed no interrupt is chosen. -/
theorem State.not_chosen {s : State} (h : ∀ v, ¬ s.GateOpen v) : s.chooseInterrupt = none :=
  Option.eq_none_iff_forall_ne_some.2 fun v hv => h v (State.gateOpen_of_chosen hv)

/-- The only open gate is the chosen one. -/
theorem State.chosen_of_only_gate {s : State} {v : Nat} (h : s.GateOpen v) (honly : ∀ u, s.GateOpen u → u = v) :
    s.chooseInterrupt = some v := by
  obtain ⟨u, hu⟩ := State.chosen_of_gateOpen h
  rw [hu, honly u (State.gateOpen_of_chosen hu)]

/-- Settles O11: the chosen interrupt is a deliverable one, and the recommended order names every source. -/
theorem interruptGates : Obligations.InterruptGates := by
  unfold Obligations.InterruptGates
  exact fun s => ⟨fun _ => State.gateOpen_of_chosen, fun ⟨_, h⟩ => State.chosen_of_gateOpen h⟩

/-- The state an IRQ leaves that arrives alone. -/
def State.afterIrq (s : State) (q : BitVec 5) (later : List (List EnvEvent)) : State :=
  { s with schedule := later, pendingIrq := s.pendingIrq.set q.toNat true q.isLt }

theorem arrivals_irq {s : State} {q : BitVec 5} {later : List (List EnvEvent)} (h : s.schedule = [.irq q] :: later) :
    arrivals s = .next (s.afterIrq q later) := by
  unfold arrivals
  rw [h]
  rfl

/-- After an IRQ arrived where none was pending, it is the only one pending. -/
theorem State.afterIrq_pendingIrq {s : State} (hnone : ∀ r : Fin 32, s.pendingIrq[r] = false) (q : BitVec 5)
    (later : List (List EnvEvent)) (r : Fin 32) : (s.afterIrq q later).pendingIrq[r] = decide (q.toNat = r.val) := by
  have hr : s.pendingIrq[r.val] = false := hnone r
  simp only [State.afterIrq, Fin.getElem_fin, Vector.getElem_set, hr]
  by_cases h : q.toNat = r.val <;> simp [h]

/-- Settles O12: the IRQ opens the only gate, so the entry of its vector is the step. -/
theorem arrivingIrqIsTaken : Obligations.ArrivingIrqIsTaken := by
  unfold Obligations.ArrivingIrqIsTaken
  intro s q a later hstatus hschedule hi ht hnmi herrors hirqs hv
  have hpending := State.afterIrq_pendingIrq hirqs q later
  have hopen : (s.afterIrq q later).GateOpen (32 + q.toNat) :=
    .inr (.inr ⟨⟨q.toNat, q.isLt⟩, rfl, by rw [hpending]; simp, hi, ht⟩)
  have honly : ∀ v, (s.afterIrq q later).GateOpen v → v = 32 + q.toNat := by
    rintro v (⟨-, h⟩ | ⟨u, -, h, -⟩ | ⟨r, rfl, h, -⟩)
    · cases hnmi.symm.trans h
    · cases (herrors u).symm.trans h
    · rw [hpending, decide_eq_true_eq] at h
      rw [h]
  have hstep : step s = .next ((s.afterIrq q later).enterInterrupt (32 + q.toNat) a) := by
    unfold step cycle
    rw [arrivals_irq hschedule]
    exact (atBoundary_of_chosen (s := s.afterIrq q later) hstatus (State.chosen_of_only_gate hopen honly)).trans
      (takeInterrupt_of_vectorTo (hv.congr rfl rfl rfl))
  refine ⟨_, hstep, rfl, rfl, rfl, rfl, fun r => ?_, rfl, fun j => State.reg_congr rfl j, rfl,
    fun b => State.byteAt_congr rfl b⟩
  have hcleared : ((s.afterIrq q later).enterInterrupt (32 + q.toNat) a).pendingIrq[r] =
      ((s.afterIrq q later).pendingIrq[r] && decide (32 + q.toNat ≠ 32 + r.val)) := State.clearPending_irq _ _ r
  rw [hcleared, hpending]
  by_cases h : q.toNat = r.val <;> simp [h]

/-! ### What arrives -/

/-- `t` is `s` but for coprocessor slots, pending indications, the environment's schedule and order, and the free-value
counter. -/
def State.SameCpu (s t : State) : Prop :=
  t = { s with
    cops := t.cops, pendingNmi := t.pendingNmi, pendingIrq := t.pendingIrq, pendingUnitError := t.pendingUnitError,
    schedule := t.schedule, intOrder := t.intOrder, fresh := t.fresh }

theorem State.SameCpu.refl (s : State) : s.SameCpu s := rfl

theorem State.SameCpu.trans {s t u : State} (h : s.SameCpu t) (h' : t.SameCpu u) : s.SameCpu u := by
  unfold State.SameCpu at *
  rw [h', h]

/-- A unit's work leaves the CPU as it is (R241). -/
theorem State.SameBeyondUnit.sameCpu {n : BitVec 3} {s t : State} (h : s.SameBeyondUnit n t) : s.SameCpu t := by
  obtain ⟨-, hframe, -⟩ := h
  unfold State.SameCpu
  rw [hframe]

/-- A unit that finishes its oldest piece of work stays inside its frame. -/
theorem runOldest_frame {n : BitVec 3} {s t : State} (h : runOldest n s = .next t) : s.SameBeyondUnit n t := by
  unfold runOldest at h
  split at h
  · cases h
    exact .refl n s
  · exact (State.sameBeyondUnit_setCop n s _).trans (runWork_frame h)

/-- Settles O16: the event is `runOldest`. -/
theorem unitsTouchNothingElse : Obligations.UnitsTouchNothingElse := by
  unfold Obligations.UnitsTouchNothingElse
  exact fun n s t h => runOldest_frame h

/-- Every event but RESET leaves the CPU as it is. -/
theorem applyEvent_sameCpu {e : EnvEvent} {s t : State} (he : e ≠ .reset) (h : applyEvent e s = .next t) : s.SameCpu t := by
  cases e with
  | nmi => cases h; rfl
  | irq v => cases h; rfl
  | irqWithdraw v => cases h; rfl
  | unitRun n => exact (runOldest_frame h).sameCpu
  | unitError n =>
    cases h
    split
    · rfl
    · rfl
  | order vs => cases h; rfl
  | reset => exact absurd rfl he

theorem applyEvents_sameCpu {es : List EnvEvent} {s t : State} (hes : .reset ∉ es) (h : applyEvents es s = .next t) :
    s.SameCpu t := by
  induction es generalizing s with
  | nil => cases h; exact .refl _
  | cons e es ih =>
    obtain ⟨hne, hrest⟩ := List.ne_and_not_mem_of_not_mem_cons hes
    obtain ⟨u, hevent, hevents⟩ := andThen_next h
    exact (applyEvent_sameCpu hne.symm hevent).trans (ih hrest hevents)

/-- Where no RESET arrives, the arrivals leave the CPU as it is. -/
theorem arrivals_sameCpu {s t : State} (hreset : ¬ s.ResetArrives) (h : arrivals s = .next t) : s.SameCpu t := by
  unfold arrivals at h
  split at h
  · cases h
    exact .refl s
  next es rest hschedule =>
    have hno : .reset ∉ es := fun hmem => hreset ⟨es, rest, hschedule, hmem⟩
    exact State.SameCpu.trans (t := { s with schedule := rest }) rfl (applyEvents_sameCpu hno h)

/-! ### Waiting -/

/-- A stopped CPU does nothing at a boundary but let the environment move (R262). -/
theorem step_of_stopped {s t : State} (hstatus : s.status = .stopped) (hreset : ¬ s.ResetArrives) (h : step s = .next t) :
    s.SameCpu t := by
  obtain ⟨u, harrivals, hboundary⟩ := andThen_next h
  have hsame := arrivals_sameCpu hreset harrivals
  have hu : u.status = .stopped := (congrArg State.status hsame).trans hstatus
  unfold atBoundary at hboundary
  rw [hu] at hboundary
  cases hboundary
  exact hsame

/-- Settles O13: a halted CPU finds no interrupt to take, a stopped one only sees what `State.SameCpu` allows. -/
theorem haltedAndStoppedWait : Obligations.HaltedAndStoppedWait := by
  unfold Obligations.HaltedAndStoppedWait
  constructor
  · intro s hstatus hschedule hgates
    rw [step_of_no_arrivals hschedule, atBoundary, hstatus, State.not_chosen hgates]
  · intro s t hstatus hreset h
    have hsame := step_of_stopped hstatus hreset h
    unfold State.SameCpu at hsame
    rw [hsame]
    exact ⟨hstatus, rfl, rfl, rfl, rfl, rfl, rfl, rfl, rfl, fun a => rfl⟩

/-! ### Fetch and decode -/

/-- Four bytes that decode are a word that decodes. -/
theorem decode_of_decodeBytes {b0 b1 b2 b3 : Byte} {i : Instr} {rest : List Byte}
    (h : decodeBytes [b0, b1, b2, b3] = some (i, rest)) : decode (b3 ++ b2 ++ b1 ++ b0) = .ok i := by
  simp only [decodeBytes, wordOfBytes] at h
  split at h
  next hdecode =>
    cases h
    exact hdecode
  next => cases h

/-- An undisturbed running CPU that can fetch runs the word at pc (R73, R355). -/
theorem step_runs_word {s : State} (hrunning : s.status = .running) (hquiet : s.Undisturbed)
    (hfetch : Config.accessible s.cfg .fetch s.pc 4 = true) (hcoherent : s.cfg.ifetchCoherent = true) :
    step s = runWord (s.byteAt (s.pc + 3) ++ s.byteAt (s.pc + 2) ++ s.byteAt (s.pc + 1) ++ s.byteAt s.pc) s := by
  rw [step_undisturbed hrunning hquiet, runInstruction, s.fetch_word hfetch hcoherent]

/-- Settles O6: the word at pc decodes, so running it executes its instruction. -/
theorem stepRunsDecodedInstruction : Obligations.StepRunsDecodedInstruction := by
  unfold Obligations.StepRunsDecodedInstruction
  intro s i rest hrunning hquiet hfetch hcoherent hbytes
  rw [step_runs_word hrunning hquiet hfetch hcoherent, runWord, decode_of_decodeBytes hbytes]

/-- Settles O7: the fetch, and a word that is no instruction. -/
theorem stepRejectsBadFetch : Obligations.StepRejectsBadFetch := by
  unfold Obligations.StepRejectsBadFetch
  intro s hrunning hquiet
  refine ⟨fun hfetch => ?_, fun w hfetch hcoherent hword => ?_⟩
  · rw [step_undisturbed hrunning hquiet, runInstruction, State.fetch, hfetch]
    rfl
  · have hstep : step s = runWord w s :=
      (step_runs_word hrunning hquiet hfetch hcoherent).trans (congrArg (runWord · s) (Option.some.inj hword))
    rw [hstep]
    refine ⟨fun op hdecode => ?_, fun op hdecode => ?_⟩
    · rw [runWord, hdecode]
      rfl
    · rw [runWord, hdecode]
      cases hp : s.cfg.unassigned <;> simp [rejectWord, hp]

/-! ### Instructions that only idle, and instructions without a meaning -/

/-- Settles O22: each is its own definition. -/
theorem idleInstructionsEffect : Obligations.IdleInstructionsEffect := by
  unfold Obligations.IdleInstructionsEffect
  exact fun s => ⟨fun _ => rfl, rfl, rfl, fun _ _ => rfl⟩

/-- Settles O60: each is its own definition. -/
theorem lostInstructionsRefused : Obligations.LostInstructionsRefused := by
  unfold Obligations.LostInstructionsRefused
  exact fun s => ⟨fun _ _ _ _ _ _ _ => ⟨rfl, rfl⟩, fun _ _ _ _ _ _ _ => ⟨rfl, rfl, rfl, rfl⟩⟩

end Sys2Proof.Machine

/-! PROOFS. MOV (40_und_pause_mov.md R143 to R145, 10_state.md R35 to R64): which registers the maps define, what a read of each
delivers, what a write of each does, and the checks before both. -/

namespace Sys2Proof.Machine

/-! ### Which registers the maps define -/

/-- The maps below 8 belong to no coprocessor (R35). -/
theorem lowMap_ne_unitMap : ∀ n : BitVec 3, 0#4 ≠ 1#1 ++ n ∧ 1#4 ≠ 1#1 ++ n ∧ 2#4 ≠ 1#1 ++ n ∧ 3#4 ≠ 1#1 ++ n ∧
    4#4 ≠ 1#1 ++ n ∧ 5#4 ≠ 1#1 ++ n ∧ 6#4 ≠ 1#1 ++ n ∧ 7#4 ≠ 1#1 ++ n := by
  decide

theorem unitMap_ne_lowMap : ∀ n : BitVec 3, 1#1 ++ n ≠ 0#4 ∧ 1#1 ++ n ≠ 1#4 ∧ 1#1 ++ n ≠ 2#4 ∧ 1#1 ++ n ≠ 3#4 ∧
    1#1 ++ n ≠ 4#4 := by
  decide

/-- A property of the coprocessor of map 8+n is one of coprocessor n. -/
theorem exists_unitMap_iff (n : BitVec 3) (p : BitVec 3 → Prop) : (∃ k : BitVec 3, 1#1 ++ n = 1#1 ++ k ∧ p k) ↔ p n := by
  constructor
  · rintro ⟨k, hk, hp⟩
    rw [← mapUnit_append n, hk, mapUnit_append]
    exact hp
  · exact fun hp => ⟨n, rfl, hp⟩

/-- The registers of Map 4: the control words of the enabled coprocessors, and `others`, which stand above them (R46 to R48). -/
theorem State.map4_iff (s : State) (i : BitVec 5) (others : Bool) (hothers : others = true → 8 ≤ i.toNat) :
    (if i.toNat < 8 then s.enabled (ctlUnit i) else others) = true ↔
      (∃ n : BitVec 3, i = n.setWidth 5 ∧ s.enabled n = true) ∨ others = true := by
  by_cases hi : i.toNat < 8
  · obtain ⟨n, rfl⟩ := (ctlRegister_iff i).1 hi
    rw [if_pos hi, ctlUnit_setWidth, or_iff_left (fun h => absurd (hothers h) (Nat.not_le.2 hi))]
    constructor
    · exact fun h => ⟨n, rfl, h⟩
    · rintro ⟨k, hk, he⟩
      rw [← ctlUnit_setWidth n, hk, ctlUnit_setWidth]
      exact he
  · rw [if_neg hi, or_iff_right]
    rintro ⟨n, hn, -⟩
    exact hi ((ctlRegister_iff i).2 ⟨n, hn⟩)

theorem map1Defines_iff (i : BitVec 5) : map1Defines i = true ↔ i = 0 ∨ i = 2 ∨ i = 31 := by
  simp [map1Defines, or_assoc]

/-- `copen` stands above the control words. -/
theorem map4_writable_above (i : BitVec 5) : (i == 30) = true → 8 ≤ i.toNat := by
  revert i
  decide

/-- `copen` and `coppresent` stand above the control words. -/
theorem map4_readable_above (i : BitVec 5) : (i == 30 || i == 31) = true → 8 ≤ i.toNat := by
  revert i
  decide

theorem State.readable_map4 (s : State) (i : BitVec 5) : s.readable 4 i = .defined ↔
    (∃ n : BitVec 3, i = n.setWidth 5 ∧ s.enabled n = true) ∨ i = 30 ∨ i = 31 := by
  have h := (Access.ofBool_defined _).trans (s.map4_iff i (i == 30 || i == 31) (map4_readable_above i))
  rw [Bool.or_eq_true, beq_iff_eq, beq_iff_eq] at h
  exact h

theorem State.writable_map4 (s : State) (i : BitVec 5) : s.writable 4 i = .defined ↔
    (∃ n : BitVec 3, i = n.setWidth 5 ∧ s.enabled n = true) ∨ i = 30 := by
  have h := (Access.ofBool_defined _).trans (s.map4_iff i (i == 30) (map4_writable_above i))
  rw [beq_iff_eq] at h
  exact h

/-- Map 5, 6 or 7, which define no register (R49, R50). -/
theorem State.emptyMap (s : State) (i : BitVec 5) : ∀ m : BitVec 4, m = 5 ∨ m = 6 ∨ m = 7 →
    s.readable m i = .undefined ∧ s.writable m i = .undefined := by
  rintro m (rfl | rfl | rfl) <;> exact ⟨rfl, rfl⟩

theorem State.readable_iff (s : State) (m : BitVec 4) (i : BitVec 5) : s.readable m i = .defined ↔ s.ReadableRule m i := by
  unfold State.ReadableRule
  rcases map_cases m with rfl | rfl | rfl | rfl | rfl | rfl | rfl | rfl | ⟨n, rfl⟩
  · exact ⟨fun _ => .inl rfl, fun _ => rfl⟩
  · rw [show s.readable 1 i = .ofBool (map1Defines i) from rfl, Access.ofBool_defined, map1Defines_iff]
    simp [lowMap_ne_unitMap]
  · exact ⟨fun _ => .inr (.inr (.inl rfl)), fun _ => rfl⟩
  · exact ⟨fun _ => .inr (.inr (.inr (.inl rfl))), fun _ => rfl⟩
  · rw [s.readable_map4]
    simp [lowMap_ne_unitMap]
  · rw [(s.emptyMap i 5 (by decide)).1]
    simp [lowMap_ne_unitMap]
  · rw [(s.emptyMap i 6 (by decide)).1]
    simp [lowMap_ne_unitMap]
  · rw [(s.emptyMap i 7 (by decide)).1]
    simp [lowMap_ne_unitMap]
  · rw [State.readable_unit, (s.unitAccess_iff n i false).1, exists_unitMap_iff]
    simp [unitMap_ne_lowMap]

theorem State.writable_iff (s : State) (m : BitVec 4) (i : BitVec 5) : s.writable m i = .defined ↔ s.WritableRule m i := by
  unfold State.WritableRule
  rcases map_cases m with rfl | rfl | rfl | rfl | rfl | rfl | rfl | rfl | ⟨n, rfl⟩
  · exact ⟨fun _ => .inl rfl, fun _ => rfl⟩
  · rw [show s.writable 1 i = .ofBool (map1Defines i) from rfl, Access.ofBool_defined, map1Defines_iff]
    simp [lowMap_ne_unitMap]
  · exact ⟨fun _ => .inr (.inr (.inl rfl)), fun _ => rfl⟩
  · rw [show s.writable 3 i = .undefined from rfl]
    simp [lowMap_ne_unitMap]
  · rw [s.writable_map4]
    simp [lowMap_ne_unitMap]
  · rw [(s.emptyMap i 5 (by decide)).2]
    simp [lowMap_ne_unitMap]
  · rw [(s.emptyMap i 6 (by decide)).2]
    simp [lowMap_ne_unitMap]
  · rw [(s.emptyMap i 7 (by decide)).2]
    simp [lowMap_ne_unitMap]
  · rw [State.writable_unit, (s.unitAccess_iff n i true).1, exists_unitMap_iff]
    simp [unitMap_ne_lowMap]

/-- In the maps below 8 every register is defined or undefined; only a coprocessor's map leaves one undescribed. -/
theorem State.access_lowMap (s : State) (m : BitVec 4) (i : BitVec 5) :
    (∃ n : BitVec 3, m = 1#1 ++ n) ∨
      (¬ s.Undescribed m i ∧ s.readable m i ≠ .undescribed ∧ s.writable m i ≠ .undescribed) := by
  unfold State.Undescribed
  rcases map_cases m with rfl | rfl | rfl | rfl | rfl | rfl | rfl | rfl | hunit
  · exact .inr ⟨by simp [lowMap_ne_unitMap], nofun, nofun⟩
  · exact .inr ⟨by simp [lowMap_ne_unitMap], Access.ofBool_described _, Access.ofBool_described _⟩
  · exact .inr ⟨by simp [lowMap_ne_unitMap], nofun, nofun⟩
  · exact .inr ⟨by simp [lowMap_ne_unitMap], nofun, nofun⟩
  · exact .inr ⟨by simp [lowMap_ne_unitMap], Access.ofBool_described _, Access.ofBool_described _⟩
  · exact .inr ⟨by simp [lowMap_ne_unitMap], nofun, nofun⟩
  · exact .inr ⟨by simp [lowMap_ne_unitMap], nofun, nofun⟩
  · exact .inr ⟨by simp [lowMap_ne_unitMap], nofun, nofun⟩
  · exact .inl hunit

/-- A register is undescribed for both directions or for none: 26 to 31 of an enabled FPU (R272, log 28). -/
theorem State.undescribed_iff (s : State) (m : BitVec 4) (i : BitVec 5) :
    (s.readable m i = .undescribed ↔ s.Undescribed m i) ∧ (s.writable m i = .undescribed ↔ s.Undescribed m i) := by
  obtain ⟨n, rfl⟩ | ⟨hnot, hread, hwrite⟩ := s.access_lowMap m i
  · unfold State.Undescribed
    rw [exists_unitMap_iff, State.readable_unit, State.writable_unit]
    exact ⟨(s.unitAccess_iff n i false).2, (s.unitAccess_iff n i true).2⟩
  · exact ⟨iff_of_false hread hnot, iff_of_false hwrite hnot⟩

/-- Settles O23: the access rules and the undescribed registers, map by map. -/
theorem readableAndWritable : Obligations.ReadableAndWritable := by
  unfold Obligations.ReadableAndWritable
  exact fun s m i => ⟨s.readable_iff m i, s.writable_iff m i, (s.undescribed_iff m i).1, (s.undescribed_iff m i).2⟩

/-! ### The checks before a MOV -/

/-- The register check of MOV passes exactly when the access rule of its direction allows it (R144). -/
theorem State.movAccess_defined_iff (s : State) (d i : BitVec 5) (r : Bool) (m : BitVec 4) :
    s.movAccess d i r m = .defined ↔ if r then s.WritableRule m d else s.ReadableRule m i := by
  cases r with
  | false => exact s.readable_iff m i
  | true => exact s.writable_iff m d

theorem State.movAccess_undescribed_iff (s : State) (d i : BitVec 5) (r : Bool) (m : BitVec 4) :
    s.movAccess d i r m = .undescribed ↔ s.Undescribed m (if r then d else i) := by
  cases r with
  | false => exact (s.undescribed_iff m i).1
  | true => exact (s.undescribed_iff m d).2

section MovChecks

variable {d i : BitVec 5} {l r : Bool} {c : Cond} {m : BitVec 4} {s u : State} {v : Word}

/-- A MOV whose condition fails only moves to the next instruction (R144). -/
theorem exec_mov_of_skipped (hc : c.holds s.flags = false) (h : s.movAccess d i r m = .defined) :
    exec (.mov d i l c r m) s = .next s.advance := by
  simp only [exec, execMov, h, hc, Bool.false_eq_true, if_false]

theorem exec_mov_of_undefined (h : s.movAccess d i r m = .undefined) :
    exec (.mov d i l c r m) s = s.raise .invalidInstruction := by
  simp only [exec, execMov, h]

theorem exec_mov_of_undescribed (h : s.movAccess d i r m = .undescribed) :
    exec (.mov d i l c r m) s = .refused (.fpuRegisterUndescribed (if r then d else i)) := by
  simp only [exec, execMov, h]

/-- A MOV that reads, given what the map delivers. -/
theorem exec_mov_of_read (hc : c.holds s.flags = true) (h : s.readable m i = .defined) (hread : s.mapRead m i = (v, u)) :
    exec (.mov d i l c false m) s = .next (u.setReg d v).advance := by
  rw [exec_mov_read _ _ _ _ _ _ hc h, hread]

/-- A MOV that writes a value its register accepts. -/
theorem exec_mov_of_valid (hc : c.holds s.flags = true) (h : s.writable m d = .defined)
    (hvalid : s.validValue m d (s.reg i) = (true, u)) :
    exec (.mov d i l c true m) s = .next (u.mapWrite m d (s.reg i)).advance := by
  rw [exec_mov_write _ _ _ _ _ _ hc h, hvalid]
  rfl

/-- A MOV of a value its register rejects raises EX[4] (R346). -/
theorem exec_mov_of_invalid (hc : c.holds s.flags = true) (h : s.writable m d = .defined)
    (hvalid : s.validValue m d (s.reg i) = (false, u)) : exec (.mov d i l c true m) s = u.raise .consistency := by
  rw [exec_mov_write _ _ _ _ _ _ hc h, hvalid]
  rfl

end MovChecks

/-- Settles O30: the rules are those of the register check, so only the condition decides. -/
theorem movSkips : Obligations.MovSkips := by
  unfold Obligations.MovSkips
  intro d i l r c m s hc hread hwrite
  refine exec_mov_of_skipped hc ((s.movAccess_defined_iff d i r m).2 ?_)
  cases r with
  | false => exact hread rfl
  | true => exact hwrite rfl

/-- Settles O31: a register that is neither allowed nor undescribed is undefined. -/
theorem movChecksRegister : Obligations.MovChecksRegister := by
  unfold Obligations.MovChecksRegister
  intro d i l r c m s named allowed
  refine ⟨fun hnot hdescribed => ?_, fun h => exec_mov_of_undescribed ((s.movAccess_undescribed_iff d i r m).2 h)⟩
  have hundefined : s.movAccess d i r m = .undefined := by
    cases h : s.movAccess d i r m with
    | defined => exact absurd ((s.movAccess_defined_iff d i r m).1 h) hnot
    | undescribed => exact absurd ((s.movAccess_undescribed_iff d i r m).1 h) hdescribed
    | undefined => rfl
  rw [exec_mov_of_undefined hundefined]
  exact ⟨fun a => State.raise_of_vectorTo (e := .invalidInstruction), fun ht => State.raise_isReset ht _⟩

/-! ### Reading -/

/-- What writing a general register and moving on leaves (R22, R25). -/
theorem State.setReg_advance_effect (s : State) (d : BitVec 5) (v : Word) :
    (s.setReg d v).advance.pc = s.pc + 4 ∧ (s.setReg d v).advance.flags = s.flags ∧
      (∀ j, (s.setReg d v).advance.reg j = if j = d ∧ d ≠ 0 then v else s.reg j) ∧ s.SameBeyondCore (s.setReg d v).advance := by
  refine ⟨by simp, by simp, fun j => ?_, (s.sameBeyondCore_setReg d v).trans (State.sameBeyondCore_advance _)⟩
  rw [State.reg_advance, State.reg_setReg]

/-- A MOV inside Map 0 copies a register in either direction. -/
theorem exec_mov_general (d i : BitVec 5) (l r : Bool) {c : Cond} {s : State} (hc : c.holds s.flags = true) :
    exec (.mov d i l c r 0) s = .next (s.setReg d (s.reg i)).advance := by
  cases r with
  | false => exact exec_mov_of_read hc rfl rfl
  | true => exact exec_mov_of_valid hc rfl rfl

/-- Map 4 register n reads coprocessor n's control word (R46). -/
theorem State.mapRead_ctl (s : State) (n : BitVec 3) : s.mapRead 4 (n.setWidth 5) = ((s.cop n).ctl, s) := by
  rcases slot_cases n with rfl | rfl | rfl | rfl | rfl | rfl | rfl | rfl <;> rfl

/-- Settles O24: each case names a readable register and what the map delivers of it. -/
theorem movReads : Obligations.MovReads := by
  unfold Obligations.MovReads
  intro d i l r c m v s hc hcase
  have hexec : exec (.mov d i l c r m) s = .next (s.setReg d v).advance := by
    rcases hcase with ⟨rfl, rfl⟩ | ⟨rfl, ⟨rfl, rfl, rfl⟩ | ⟨rfl, rfl, rfl⟩ | ⟨rfl, rfl, rfl⟩ | ⟨rfl, rfl⟩ | ⟨rfl, rfl⟩ |
      ⟨rfl, n, rfl, he, rfl⟩ | ⟨rfl, rfl, rfl⟩ | ⟨rfl, rfl, rfl⟩⟩
    · exact exec_mov_general d i l r hc
    · exact exec_mov_of_read hc rfl rfl
    · exact exec_mov_of_read hc rfl rfl
    · exact exec_mov_of_read hc rfl rfl
    · exact exec_mov_of_read hc rfl rfl
    · exact exec_mov_of_read hc rfl rfl
    · exact exec_mov_of_read hc ((s.readable_map4 _).2 (.inl ⟨n, rfl, he⟩)) (s.mapRead_ctl n)
    · exact exec_mov_of_read hc rfl rfl
    · exact exec_mov_of_read hc rfl rfl
  exact ⟨_, hexec, s.setReg_advance_effect d v⟩

/-! ### Reading a unit's registers -/

/-- `fpuop` as it reads, bit by bit (R275). -/
theorem fpuopWord_bit (c : Cop) (r running : Bool) (free : Word) (k : Nat) (hk : k < 32) :
    (fpuopWord c r running free).getLsbD k =
      (c.opX.getLsbD k || (decide (3 ≤ k ∧ k < 16) && free.getLsbD k) || (decide (k = 16) && r) || (decide (k = 17) && c.opU) ||
        (decide (18 ≤ k) && (c.opBegun || running) && free.getLsbD k)) := by
  have hz : ∀ k < 32, BitVec.getLsbD (0x0000FFF8#32) k = decide (3 ≤ k ∧ k < 16) := by decide
  have hi : ∀ k < 32, BitVec.getLsbD (0xFFFC0000#32) k = decide (18 ≤ k) := by decide
  have hr : ∀ k < 32, BitVec.getLsbD (0x00010000#32) k = decide (k = 16) := by decide
  have hu : ∀ k < 32, BitVec.getLsbD (0x00020000#32) k = decide (k = 17) := by decide
  simp only [fpuopWord, BitVec.getLsbD_or, BitVec.getLsbD_and, BitVec.getLsbD_setWidth, BitVec.ofNat_eq_ofNat, hz k hk, hk,
    decide_true, Bool.true_and]
  grind

/-- The fields of `fpuop` as it reads: x, r and u, and an i field of 0 where no instruction has begun (R275, log 19). -/
theorem fpuopWord_fields (c : Cop) (r running : Bool) (free : Word) :
    (fpuopWord c r running free).extractLsb' 0 3 = c.opX ∧ (fpuopWord c r running free).getLsbD 16 = r ∧
      (fpuopWord c r running free).getLsbD 17 = c.opU ∧
      (c.opBegun = false → running = false → (fpuopWord c r running free).extractLsb' 18 14 = 0) := by
  have hx : ∀ k, 3 ≤ k → c.opX.getLsbD k = false := fun k hk => BitVec.getLsbD_of_ge _ _ hk
  refine ⟨?_, ?_, ?_, fun hb hr => ?_⟩
  · apply BitVec.eq_of_getLsbD_eq
    intro k hk
    rw [BitVec.getLsbD_extractLsb', fpuopWord_bit _ _ _ _ _ (by omega)]
    grind
  · rw [fpuopWord_bit _ _ _ _ 16 (by decide), hx 16 (by decide)]
    simp
  · rw [fpuopWord_bit _ _ _ _ 17 (by decide), hx 17 (by decide)]
    simp
  · apply BitVec.eq_of_getLsbD_eq
    intro k hk
    rw [BitVec.getLsbD_extractLsb', fpuopWord_bit _ _ _ _ _ (by omega), hx _ (by omega), hb, hr]
    grind

/-- What a described register of an FPU reads as (R272, R275). -/
theorem State.unitRead_value (s : State) (n : BitVec 3) (i : BitVec 5) (r running : Bool) :
    (∀ h : i.toNat < 16, (s.unitRead n i r running).1 = (s.cop n).fp[i.toNat]) ∧
      (∀ h : 16 ≤ i.toNat ∧ i.toNat < 24, (s.unitRead n i r running).1 = (s.cop n).fpi[i.toNat - 16]) ∧
      (i = 24 → (s.unitRead n i r running).1 = fpuopWord (s.cop n) r running (Config.freeWord s.fresh)) ∧
      (i = 25 → (s.unitRead n i r running).1 = (s.cop n).csr) := by
  refine ⟨fun h => ?_, fun h => ?_, ?_, ?_⟩
  · rw [State.unitRead, dif_pos h]
  · rw [State.unitRead, dif_neg (Nat.not_lt.2 h.1), dif_pos h.2]
  · rintro rfl
    rfl
  · rintro rfl
    rfl

/-- What a CPU read of an FPU's register delivers: the busy bit is that of the queue at that moment (R275, log 19). -/
theorem State.cpuUnitRead_fpuop {s : State} {n : BitVec 3} (hk : s.kind n = .fpu) :
    let v := (s.cpuUnitRead n 24).1
    v.extractLsb' 0 3 = (s.cop n).opX ∧ (v.getLsbD 16 = true ↔ (s.cop n).queue ≠ []) ∧ v.getLsbD 17 = (s.cop n).opU ∧
      ((s.cop n).opBegun = false → (s.cop n).queue = [] → v.extractLsb' 18 14 = 0) := by
  intro v
  have hv : v = fpuopWord (s.cop n) (s.busy n) (mayBeInProgress (s.cop n).queue) (Config.freeWord s.fresh) := by
    unfold v State.cpuUnitRead
    rw [hk]
    exact (s.unitRead_value n 24 _ _).2.2.1 rfl
  obtain ⟨hx, hr, hu, hi⟩ := fpuopWord_fields (s.cop n) (s.busy n) (mayBeInProgress (s.cop n).queue) (Config.freeWord s.fresh)
  rw [hv]
  refine ⟨hx, ?_, hu, fun hbegun hqueue => hi hbegun ?_⟩
  · rw [hr, State.busy, Bool.not_eq_true', List.isEmpty_eq_false_iff]
  · rw [hqueue]
    rfl

/-- A register write after free values were used. -/
theorem State.setReg_advance_fresh (s : State) (k : Nat) (d : BitVec 5) (v : Word) :
    let t := (State.setReg { s with fresh := k } d v).advance
    t = { s with x := t.x, pc := s.pc + 4, fresh := t.fresh } := by
  unfold State.setReg
  split <;> rfl

/-- Settles O25: the check of MOV allows the register, and the read uses up at most a free value. -/
theorem movReadsUnits : Obligations.MovReadsUnits := by
  unfold Obligations.MovReadsUnits
  intro d i l c n s hc he hrule
  have hread : s.readable (1#1 ++ n) i = .defined := by
    rw [State.readable_unit, (s.unitAccess_iff n i false).1]
    exact ⟨he, hrule⟩
  have hframe : (s.cpuUnitRead n i).2 = { s with fresh := (s.cpuUnitRead n i).2.fresh } := by
    have h := s.mapRead_frame (1#1 ++ n) i
    rwa [State.mapRead_unit] at h
  have hexec := exec_mov_read d i l c _ s hc hread
  rw [State.mapRead_unit, hframe] at hexec
  obtain ⟨-, -, hreg, hbytes, -⟩ :=
    State.setReg_advance_effect { s with fresh := (s.cpuUnitRead n i).2.fresh } d (s.cpuUnitRead n i).1
  refine ⟨_, (s.cpuUnitRead n i).1, hexec, fun hk => ?_, hreg, hbytes, s.setReg_advance_fresh _ d _⟩
  obtain ⟨hfp, hfpi, -, hcsr⟩ := s.unitRead_value n i (s.busy n) (mayBeInProgress (s.cop n).queue)
  have hunit : s.cpuUnitRead n i = s.unitRead n i (s.busy n) (mayBeInProgress (s.cop n).queue) := by
    rw [State.cpuUnitRead, hk]
  refine ⟨by rw [hunit]; exact hfp, by rw [hunit]; exact hfpi, ?_, by rw [hunit]; exact hcsr⟩
  rintro rfl
  exact State.cpuUnitRead_fpuop hk

/-! ### Writing the system registers -/

/-- Settles O26: each value passes its check, and the write of the map is the write of one field. -/
theorem movWritesSystem : Obligations.MovWritesSystem := by
  unfold Obligations.MovWritesSystem
  intro d i l c s hc v
  refine ⟨fun hv => ?_, fun hv => ?_, exec_mov_of_valid hc rfl rfl, _, exec_mov_of_valid hc rfl rfl, fun j => ?_, rfl⟩
  · have hvalid : s.validValue 1 0 v = (true, s) := congrArg (·, s) (beq_iff_eq.2 hv)
    exact exec_mov_of_valid hc rfl hvalid
  · have hvalid : s.validValue 1 2 v = (true, s) := congrArg (·, s) (beq_iff_eq.2 hv)
    exact exec_mov_of_valid hc rfl hvalid
  · exact s.ioReg_setIoReg d j v

/-! ### Writing copen -/

/-- Every coprocessor is one of the eight slots. -/
theorem mem_slots : ∀ n : BitVec 3, n ∈ slots := by
  decide

/-- What a write of `copen` leaves: the register, each unit by its old and its new bit, and everything else (R47, R273). -/
theorem State.writeCopen_spec (s : State) (v : Word) :
    (s.writeCopen v).copen = v ∧ (∀ n, Switched v s (s.writeCopen v) n) ∧
      (∀ b, (s.writeCopen v).byteAt b = s.byteAt b) ∧
      s.writeCopen v = { s with
        copen := v, cops := (s.writeCopen v).cops, pendingUnitError := (s.writeCopen v).pendingUnitError,
        fresh := (s.writeCopen v).fresh } := by
  obtain ⟨-, hswitched, -, hbytes, hframe⟩ := s.switchUnits_spec v slots (by decide)
  refine ⟨rfl, fun n => hswitched n (mem_slots n), hbytes, congrArg (State.setCopen · v) hframe⟩

/-- The value check of `copen`: bits above the eight units zero, and only present units named (R47). -/
theorem State.validValue_copen (s : State) (v : Word) :
    s.validValue 4 30 v = (v.extractLsb' 8 24 == 0 && v.extractLsb' 0 8 &&& ~~~s.cfg.copPresent == 0, s) := rfl

/-- Settles O27: a valid value is written by `State.writeCopen`. -/
theorem movWritesCopen : Obligations.MovWritesCopen := by
  unfold Obligations.MovWritesCopen
  intro i l c s hc hreserved hpresent
  have hvalid : s.validValue 4 30 (s.reg i) = (true, s) := by
    rw [s.validValue_copen, hreserved, hpresent]
    rfl
  obtain ⟨hcopen, hswitched, hbytes, hframe⟩ := s.writeCopen_spec (s.reg i)
  refine ⟨(s.writeCopen (s.reg i)).advance, exec_mov_of_valid hc rfl hvalid, hcopen, fun n => (hswitched n).1,
    fun n => (hswitched n).2.1, fun n => (hswitched n).2.2, hbytes, congrArg State.advance hframe⟩

/-! ### Writing a control word -/

/-- The control word of an enabled unit is writable (R46, R63). -/
theorem State.writable_ctl {s : State} {n : BitVec 3} (he : s.enabled n = true) : s.writable 4 (n.setWidth 5) = .defined :=
  (s.writable_map4 _).2 (.inl ⟨n, rfl, he⟩)

/-- The value check of a control word (R64). -/
theorem State.validValue_ctl (s : State) (n : BitVec 3) (v : Word) :
    s.validValue 4 (n.setWidth 5) v = s.unitAccepts n (v.extractLsb' 1 31 == 0) := by
  rcases slot_cases n with rfl | rfl | rfl | rfl | rfl | rfl | rfl | rfl <;> rfl

theorem State.mapWrite_ctl (s : State) (n : BitVec 3) (v : Word) : s.mapWrite 4 (n.setWidth 5) v = s.ctlWrite n v := by
  rcases slot_cases n with rfl | rfl | rfl | rfl | rfl | rfl | rfl | rfl <;> rfl

/-- An FPU accepts by the rule given. -/
theorem State.unitAccepts_fpu {s : State} {n : BitVec 3} (hk : s.kind n = .fpu) (rule : Bool) :
    s.unitAccepts n rule = (rule, s) := by
  rw [State.unitAccepts, hk]

/-- An opaque coprocessor accepts by a free choice (log 18). -/
theorem State.unitAccepts_opaque {s : State} {n : BitVec 3} {rd wr : List (BitVec 5)} (hk : s.kind n = .other rd wr)
    (rule : Bool) : s.unitAccepts n rule = (Config.freeBool s.fresh, s.spend 1) := by
  rw [State.unitAccepts, hk]

/-- The slot a control-word write leaves in an FPU (R271). -/
theorem State.fpuCtlWrite_cop (s : State) (n : BitVec 3) (v : Word) : (s.fpuCtlWrite n v).cop n =
    { s.cop n with ctl := v, queue := [.settle], opX := 0, opU := false, opBegun := false } := by
  rw [State.fpuCtlWrite, State.cop_setCop, if_pos rfl]

/-- A control-word write is a Configuration Error exactly when the FPU is busy (R271, R274). -/
theorem State.fpuCtlWrite_unitError (s : State) (n : BitVec 3) (v : Word) :
    (s.fpuCtlWrite n v).pendingUnitError[n.toNat]'n.isLt = (s.pendingUnitError[n.toNat]'n.isLt || s.busy n) := by
  unfold State.fpuCtlWrite
  cases h : s.busy n <;> simp

theorem State.sameBeyondUnit_fpuCtlWrite (s : State) (n : BitVec 3) (v : Word) : s.SameBeyondUnit n (s.fpuCtlWrite n v) := by
  unfold State.fpuCtlWrite
  cases s.busy n with
  | false => exact State.sameBeyondUnit_setCop n s _
  | true => exact (State.sameBeyondUnit_setUnitError n s true).trans (State.sameBeyondUnit_setCop n _ _)

theorem State.fpuCtlWrite_frame (s : State) (n : BitVec 3) (v : Word) : s.fpuCtlWrite n v =
    { s with cops := (s.fpuCtlWrite n v).cops, pendingUnitError := (s.fpuCtlWrite n v).pendingUnitError } := by
  unfold State.fpuCtlWrite
  cases s.busy n <;> rfl

/-- An exception raised after a free value was used. -/
theorem State.raise_spend {s : State} {e : Exc} {a : Word} (k : Nat) (ht : s.sysT = false) (hv : s.VectorTo e.number a) :
    (s.spend k).raise e = .next ((s.spend k).enterException a) :=
  State.raise_of_vectorTo (s := s.spend k) ht (hv.congr rfl rfl rfl)

/-- Settles O28: an FPU accepts 0 and 1 by its rule, an opaque coprocessor by a free choice. -/
theorem movWritesControlWord : Obligations.MovWritesControlWord := by
  unfold Obligations.MovWritesControlWord
  intro n i l c s hc he
  have hwrite := State.writable_ctl he
  constructor
  · intro hk hv
    have hvalid : s.validValue 4 (n.setWidth 5) (s.reg i) = (true, s) := by
      rw [s.validValue_ctl, State.unitAccepts_fpu hk, hv]
      rfl
    have hexec := exec_mov_of_valid (l := l) hc hwrite hvalid
    rw [s.mapWrite_ctl, State.ctlWrite, hk] at hexec
    obtain ⟨hbytes, -, hothers⟩ := s.sameBeyondUnit_fpuCtlWrite n (s.reg i)
    have hframe := s.fpuCtlWrite_frame n (s.reg i)
    have hpc : (s.fpuCtlWrite n (s.reg i)).advance.pc = s.pc + 4 := by
      rw [hframe]
      rfl
    refine ⟨_, hexec, hpc, ?_⟩
    rw [State.cop_advance, State.fpuCtlWrite_cop]
    refine ⟨rfl, rfl, rfl, rfl, rfl, rfl, by simp, s.fpuCtlWrite_unitError n (s.reg i), hothers, hbytes,
      congrArg State.advance hframe⟩
  · intro rd wr a hk ht hv
    have hcheck : s.validValue 4 (n.setWidth 5) (s.reg i) = (Config.freeBool s.fresh, s.spend 1) := by
      rw [s.validValue_ctl, State.unitAccepts_opaque hk]
    cases hchoice : Config.freeBool s.fresh with
    | true =>
      rw [hchoice] at hcheck
      have hexec := exec_mov_of_valid (l := l) hc hwrite hcheck
      have hk' : (s.spend 1).kind n = .other rd wr := hk
      rw [State.mapWrite_ctl, State.ctlWrite, hk'] at hexec
      refine ⟨_, hexec, .inl ⟨?_, fun m hm => ?_, rfl⟩⟩
      · rw [State.cop_advance, State.cop_setCop, if_pos rfl, State.cop_spend]
      · rw [State.cop_advance, State.cop_setCop, if_neg hm, State.cop_spend]
    | false =>
      rw [hchoice] at hcheck
      have hexec := exec_mov_of_invalid (l := l) hc hwrite hcheck
      exact ⟨_, hexec.trans (State.raise_spend 1 ht hv), .inr rfl⟩

/-! ### Writing a unit's registers -/

/-- A CPU write to an FPU's registers changes only the unit's slot (R277). -/
theorem State.cpuUnitWrite_setCop (s : State) (n : BitVec 3) (i : BitVec 5) (v : Word) :
    ∃ c, s.cpuUnitWrite n i v = s.setCop n c ∧
      (i.toNat < 16 → ∃ h : i.toNat < 16, c = { s.cop n with fp := (s.cop n).fp.set i.toNat v h }) ∧
      (16 ≤ i.toNat ∧ i.toNat < 24 →
        ∃ h : i.toNat - 16 < 8, c = { s.cop n with fpi := (s.cop n).fpi.set (i.toNat - 16) v h }) ∧
      (24 ≤ i.toNat → c = { s.cop n with queue := dropPendingWrite (s.cop n).queue ++ [.statusWrite i v] }) := by
  unfold State.cpuUnitWrite State.unitWrite
  by_cases h16 : i.toNat < 16
  · rw [if_pos (by omega), dif_pos h16]
    exact ⟨_, rfl, fun _ => ⟨h16, rfl⟩, by omega, by omega⟩
  · by_cases h24 : i.toNat < 24
    · rw [if_pos h24, dif_neg h16, dif_pos h24]
      exact ⟨_, rfl, by omega, fun _ => ⟨by omega, rfl⟩, by omega⟩
    · rw [if_neg h24]
      exact ⟨_, rfl, by omega, by omega, fun _ => rfl⟩

/-- Settles O29: an FPU's register is written by `State.cpuUnitWrite`, an opaque coprocessor accepts by a free choice. -/
theorem movWritesUnits : Obligations.MovWritesUnits := by
  unfold Obligations.MovWritesUnits
  intro d i n l c s hc he
  constructor
  · intro hk hd
    have hwrite : s.writable (1#1 ++ n) d = .defined := by
      rw [State.writable_unit, (s.unitAccess_iff n d true).1]
      exact ⟨he, .inl ⟨hk, hd⟩⟩
    have hvalid : s.validValue (1#1 ++ n) d (s.reg i) = (true, s) :=
      (s.validValue_unit n d _).trans (State.unitAccepts_fpu hk true)
    have hexec := exec_mov_of_valid (l := l) hc hwrite hvalid
    obtain ⟨u, hset, hfp, hfpi, hstatus⟩ := s.cpuUnitWrite_setCop n d (s.reg i)
    rw [State.mapWrite_unit, hk] at hexec
    simp only [hset] at hexec
    refine ⟨_, hexec, ?_⟩
    rw [State.cop_advance, State.cop_setCop, if_pos rfl]
    refine ⟨hfp, hfpi, fun h => ⟨_, hstatus h, fun q' a v hq => ?_, dropPendingWrite_other _⟩, fun m hm => ?_,
      fun b => by simp, rfl⟩
    · rw [hq, dropPendingWrite_append]
    · rw [State.cop_advance, State.cop_setCop, if_neg hm]
  · intro rd wr a hk hd ht hv
    have hwrite : s.writable (1#1 ++ n) d = .defined := by
      rw [State.writable_unit, (s.unitAccess_iff n d true).1]
      exact ⟨he, .inr ⟨rd, wr, hk, hd⟩⟩
    have hcheck : s.validValue (1#1 ++ n) d (s.reg i) = (Config.freeBool s.fresh, s.spend 1) :=
      (s.validValue_unit n d _).trans (State.unitAccepts_opaque hk true)
    cases hchoice : Config.freeBool s.fresh with
    | true =>
      rw [hchoice] at hcheck
      have hexec := exec_mov_of_valid (l := l) hc hwrite hcheck
      have hk' : (s.spend 1).kind n = .other rd wr := hk
      rw [State.mapWrite_unit, hk'] at hexec
      exact ⟨_, hexec, .inl rfl⟩
    | false =>
      rw [hchoice] at hcheck
      have hexec := exec_mov_of_invalid (l := l) hc hwrite hcheck
      exact ⟨_, hexec.trans (State.raise_spend 1 ht hv), .inr rfl⟩

/-! ### Invalid values -/

/-- A bit of an absent unit makes a value invalid for `copen` (R47). -/
theorem absentUnit_ne_zero {v : Word} {present : BitVec 8} {n : Fin 8} (hv : v.getLsbD n = true)
    (hp : present.getLsbD n = false) : v.extractLsb' 0 8 &&& ~~~present ≠ 0 := by
  intro h
  have hbit := congrArg (BitVec.getLsbD · n) h
  simp [BitVec.getLsbD_not, -BitVec.getLsbD_eq_getElem, hv, hp] at hbit

/-- Settles O32: in each case the register is writable and its value check fails. -/
theorem movChecksValue : Obligations.MovChecksValue := by
  unfold Obligations.MovChecksValue
  intro d i l c m s hc v hcase
  have hraise : exec (.mov d i l c true m) s = s.raise .consistency := by
    rcases hcase with ⟨rfl, rfl, hv⟩ | ⟨rfl, rfl, hv⟩ | ⟨rfl, rfl, hv⟩ | ⟨rfl, n, rfl, he, hk, hv⟩
    · have hvalid : s.validValue 1 0 v = (false, s) := congrArg (·, s) (beq_eq_false_iff_ne.2 hv)
      exact exec_mov_of_invalid hc rfl hvalid
    · have hvalid : s.validValue 1 2 v = (false, s) := congrArg (·, s) (beq_eq_false_iff_ne.2 hv)
      exact exec_mov_of_invalid hc rfl hvalid
    · have hvalid : s.validValue 4 30 v = (false, s) := by
        rw [s.validValue_copen]
        obtain hv | ⟨n, hset, habsent⟩ := hv
        · rw [beq_eq_false_iff_ne.2 hv, Bool.false_and]
        · rw [beq_eq_false_iff_ne.2 (absentUnit_ne_zero hset habsent), Bool.and_false]
      exact exec_mov_of_invalid hc rfl hvalid
    · have hvalid : s.validValue 4 (n.setWidth 5) v = (false, s) := by
        rw [s.validValue_ctl, State.unitAccepts_fpu hk, beq_eq_false_iff_ne.2 hv]
      exact exec_mov_of_invalid hc (State.writable_ctl he) hvalid
  rw [hraise]
  exact ⟨fun a => State.raise_of_vectorTo (e := .consistency), fun ht => State.raise_isReset ht _⟩

end Sys2Proof.Machine

/-! PROOFS. What every step keeps (10_state.md R26, R31, R37, R38, R47; 47_fpu_unit.md R273): the form of the state, idle disabled
units, the trap bit and the flags. `State.Effect` says all four of a change of state; every instruction, every interrupt entry
and every arrival has it. -/

namespace Sys2Proof.Machine

/-! ### The two invariants, field by field -/

/-- The form of the state depends on six fields. -/
theorem State.WellShaped.congr {s t : State} (h : s.WellShaped) (hmem : t.mem = s.mem) (hpc : t.pc = s.pc)
    (hsysctl : t.sysctl = s.sysctl) (hinttab : t.inttab = s.inttab) (hcopen : t.copen = s.copen) (hcfg : t.cfg = s.cfg) :
    t.WellShaped where
  memory := hmem ▸ h.memory
  pcAligned := hpc ▸ h.pcAligned
  sysctlReserved := hsysctl ▸ h.sysctlReserved
  inttabReserved := hinttab ▸ h.inttabReserved
  copenReserved := hcopen ▸ h.copenReserved
  copenPresent := by rw [hcopen, hcfg]; exact h.copenPresent

/-- Disabled units stay idle when none gains work or an error. -/
theorem State.DisabledUnitsIdle.of_slots {s t : State} (h : s.DisabledUnitsIdle) (hcopen : t.copen = s.copen)
    (hslots : ∀ n : BitVec 3, s.copen.getLsbD n.toNat = false → (t.cop n).queue = (s.cop n).queue ∧
      (t.pendingUnitError[n.toNat]'n.isLt = true → s.pendingUnitError[n.toNat]'n.isLt = true)) : t.DisabledUnitsIdle := by
  intro n hn
  rw [hcopen] at hn
  obtain ⟨hqueue, herror⟩ := h n hn
  obtain ⟨hkept, hcleared⟩ := hslots n hn
  refine ⟨hkept.trans hqueue, Bool.eq_false_iff.2 fun hset => ?_⟩
  cases (hcleared hset).symm.trans herror

/-- Disabled units stay idle when no slot, error or enable bit changes. -/
theorem State.DisabledUnitsIdle.congr {s t : State} (h : s.DisabledUnitsIdle) (hcopen : t.copen = s.copen)
    (hcops : t.cops = s.cops) (herrors : t.pendingUnitError = s.pendingUnitError) : t.DisabledUnitsIdle :=
  h.of_slots hcopen fun n _ => ⟨by unfold State.cop; simp only [hcops], by simp only [herrors]; exact id⟩

/-- RESET leaves every unit idle (R46, R55). -/
theorem State.warmReset_idle (s : State) : s.warmReset.DisabledUnitsIdle := fun n _ =>
  ⟨s.warmReset_isReset.queue n, s.warmReset_isReset.unitError ⟨n.toNat, n.isLt⟩⟩

/-- RESET leaves the form of the state, whatever it was but for memory. -/
theorem State.warmReset_wellShaped {s : State} (hmem : s.mem.wf = true) : s.warmReset.WellShaped where
  memory := hmem
  pcAligned := (by decide : (0x0000FF00 : Word).extractLsb' 0 2 = 0)
  sysctlReserved := (by decide : (0 : Word).extractLsb' 1 30 = 0)
  inttabReserved := (by decide : (0 : Word).extractLsb' 0 3 = 0)
  copenReserved := (by decide : (0 : Word).extractLsb' 8 24 = 0)
  copenPresent := BitVec.zero_and

/-! ### Aligned addresses -/

theorem aligned_add {a b : Word} (ha : a.extractLsb' 0 2 = 0) (hb : b.extractLsb' 0 2 = 0) : (a + b).extractLsb' 0 2 = 0 := by
  rw [lowTwoBits_eq_zero_iff] at *
  rw [BitVec.toNat_add]
  omega

theorem aligned_npc {s : State} (h : s.pc.extractLsb' 0 2 = 0) : s.npc.extractLsb' 0 2 = 0 := aligned_add h (by decide)

/-- The displacement of JMP is a multiple of four (R203). -/
theorem aligned_jmpDisp (o : BitVec 15) : (jmpDisp o).extractLsb' 0 2 = 0 := by
  rw [lowTwoBits_eq_zero_iff, jmpDisp, BitVec.toNat_shiftLeft, Nat.shiftLeft_eq]
  omega

/-! ### What a change of state keeps -/

/-- What a change from `s` to `t` keeps: both invariants; the trap bit but by RESET or where `clears` holds; the flags but by
RESET or where `writes` holds. -/
structure State.Effect (clears writes : Prop) (s t : State) : Prop where
  wellShaped : s.WellShaped → t.WellShaped
  idle : s.DisabledUnitsIdle → t.DisabledUnitsIdle
  sysT : s.sysT = true → t.sysT = true ∨ s.IsReset t ∨ clears
  flags : t.flags = s.flags ∨ s.IsReset t ∨ writes

section Effect

variable {clears writes : Prop} {s u t : State}

/-- A change that keeps both invariants, memory, the constants, `sysctl` and the flags may come first. -/
theorem State.Effect.after (h : u.Effect clears writes t) (hshape : s.WellShaped → u.WellShaped)
    (hidle : s.DisabledUnitsIdle → u.DisabledUnitsIdle) (hmem : u.mem = s.mem) (hcfg : u.cfg = s.cfg)
    (hsysctl : u.sysctl = s.sysctl) (hflags : u.flags = s.flags) : s.Effect clears writes t where
  wellShaped hs := h.wellShaped (hshape hs)
  idle hs := h.idle (hidle hs)
  sysT ht := (h.sysT ((congrArg (BitVec.getLsbD · 31) hsysctl).trans ht)).imp_right
    (Or.imp_left (State.IsReset.of_congr hmem hcfg))
  flags := by
    rw [← hflags]
    exact h.flags.imp_right (Or.imp_left (State.IsReset.of_congr hmem hcfg))

/-- Free values may be used first. -/
theorem State.Effect.after_fresh {k : Nat} (h : State.Effect clears writes { s with fresh := k } t) :
    s.Effect clears writes t :=
  h.after (fun hs => hs.congr rfl rfl rfl rfl rfl rfl) (fun hs => hs.congr rfl rfl rfl) rfl rfl rfl rfl

/-- A change of general and transfer registers, pc, flags, `intret`, run status, memory and ports. -/
theorem State.Effect.of_core (hframe : t = { s with
      x := t.x, pc := t.pc, flags := t.flags, intret := t.intret, io := t.io, status := t.status, mem := t.mem,
      storedTo := t.storedTo, portAnswers := t.portAnswers, ioTrace := t.ioTrace, fresh := t.fresh })
    (hmem : s.mem.wf = true → t.mem.wf = true) (hpc : s.pc.extractLsb' 0 2 = 0 → t.pc.extractLsb' 0 2 = 0)
    (hflags : t.flags = s.flags ∨ writes) : s.Effect clears writes t where
  wellShaped hs :=
    { memory := hmem hs.memory
      pcAligned := hpc hs.pcAligned
      sysctlReserved := by rw [hframe]; exact hs.sysctlReserved
      inttabReserved := by rw [hframe]; exact hs.inttabReserved
      copenReserved := by rw [hframe]; exact hs.copenReserved
      copenPresent := by rw [hframe]; exact hs.copenPresent }
  idle hs := hs.congr (by rw [hframe]) (by rw [hframe]) (by rw [hframe])
  sysT ht := .inl (by rw [hframe]; exact ht)
  flags := hflags.imp_right .inr

/-- A change inside the core's frame that ends at an aligned address. -/
theorem State.SameBeyondCore.effect (h : s.SameBeyondCore t) (hpc : s.pc.extractLsb' 0 2 = 0 → t.pc.extractLsb' 0 2 = 0)
    (hflags : t.flags = s.flags ∨ writes) : s.Effect clears writes t := by
  obtain ⟨-, hframe⟩ := h
  refine .of_core ?_ ?_ hpc hflags
  · rw [hframe]
  · rw [hframe]
    exact id

/-- Going on to the next instruction. -/
theorem State.advance_effect (s : State) : s.Effect clears writes s.advance :=
  s.sameBeyondCore_advance.effect aligned_npc (.inl rfl)

/-- A change of an enabled unit. -/
theorem State.SameBeyondUnit.effect {n : BitVec 3} (h : s.SameBeyondUnit n t) (hn : s.copen.getLsbD n.toNat = true) :
    s.Effect clears writes t := by
  obtain ⟨-, hframe, hothers⟩ := h
  refine ⟨fun hs => ?_, fun hs => ?_, fun ht => .inl ?_, .inl ?_⟩
  · rw [hframe]
    exact hs.congr rfl rfl rfl rfl rfl rfl
  · refine hs.of_slots (by rw [hframe]) fun m hm => ?_
    have hne : m ≠ n := by
      rintro rfl
      cases hn.symm.trans hm
    obtain ⟨hcop, herror⟩ := hothers m hne
    rw [hcop, herror]
    exact ⟨rfl, id⟩
  · rw [hframe]
    exact ht
  · rw [hframe]

/-- A change of an enabled unit, and on to the next instruction. -/
theorem State.SameBeyondUnit.effect_advance {n : BitVec 3} (h : s.SameBeyondUnit n u) (hn : s.enabled n = true) :
    s.Effect clears writes u.advance := by
  obtain ⟨-, hn⟩ := (Bool.and_eq_true_iff).1 hn
  have hunit : s.Effect clears writes u := h.effect hn
  obtain ⟨-, hframe, -⟩ := h
  exact u.advance_effect.after hunit.wellShaped hunit.idle (by rw [hframe]) (by rw [hframe]) (by rw [hframe]) (by rw [hframe])

/-- Setting t keeps the reserved bits of `sysctl` (R37). -/
theorem sysctlReserved_setT (v : Word) : (v ||| 0x80000000).extractLsb' 1 30 = v.extractLsb' 1 30 := by
  rw [BitVec.extractLsb'_or]
  exact BitVec.or_zero

/-- Taking an exception (R350, R351). -/
theorem State.raise_effect {e : Exc} (h : s.raise e = .next t) : s.Effect clears writes t := by
  obtain ⟨rfl, -⟩ | ⟨ht, a, -, haligned, rfl⟩ := State.raise_next h
  · exact ⟨fun hs => State.warmReset_wellShaped hs.memory, fun _ => s.warmReset_idle,
      fun _ => .inr (.inl s.warmReset_isReset), .inr (.inl s.warmReset_isReset)⟩
  · refine ⟨fun hs => ?_, fun hs => hs.congr rfl rfl rfl, fun hset => ?_, .inl rfl⟩
    · exact { hs with
        pcAligned := haligned
        sysctlReserved := (sysctlReserved_setT _).trans hs.sysctlReserved }
    · cases hset.symm.trans ht

/-- Waking the CPU for an interrupt keeps both invariants. -/
theorem State.wokenFor_effect {v : Nat} (h : (s.wokenFor v).Effect clears writes t) : s.Effect clears writes t := by
  have hframe := s.wokenFor_frame v
  refine h.after (fun hs => ?_) (fun hs => ?_) (by simp) (by simp) (by simp) (by rw [hframe])
  · exact hs.congr (by simp) (by simp) (by simp) (by simp) (by rw [hframe]) (by simp)
  · refine hs.of_slots (by rw [hframe]) fun n _ => ⟨?_, ?_⟩
    · rw [hframe]
      rfl
    · have hcleared : (s.wokenFor v).pendingUnitError[n.toNat]'n.isLt =
          (s.pendingUnitError[n.toNat]'n.isLt && decide (v ≠ 8 + n.toNat)) := s.clearPending_unitError v ⟨n.toNat, n.isLt⟩
      rw [hcleared, Bool.and_eq_true]
      exact And.left

/-- Taking an interrupt (R353). -/
theorem takeInterrupt_effect {v : Nat} (h : takeInterrupt v s = .next t) : s.Effect clears writes t := by
  apply State.wokenFor_effect (v := v)
  obtain ⟨a, -, haligned, rfl⟩ | ⟨e, hraise⟩ := State.interrupt_next h
  · exact (State.sameBeyondCore_goto (s.wokenFor v) a).effect (fun _ => haligned) (.inl rfl)
  · exact State.raise_effect hraise

end Effect

/-! ### MOV -/

/-- The instruction writes `sysctl`. -/
def SetsSysctl (i : Instr) : Prop := ∃ r l c, i = .mov 0 r l c true 1

/-- The instruction writes the flags (R31). -/
def WritesFlags (i : Instr) : Prop :=
  (∃ d h x k, i = .addi d h false x k) ∨ (∃ d a b k p, i = .add d a b false k p) ∨
    (∃ d a b k p, i = .sub d a b false k p) ∨ (∃ d a b k p, i = .and d a b false k p) ∨
    (∃ d a b k p, i = .or d a b false k p) ∨ (∃ d a b k p, i = .xor d a b false k p) ∨ ∃ r, i = .stflags r

section MovEffect

variable {clears writes : Prop} {s t : State}

/-- A write of a general register, and on to the next instruction. -/
theorem State.setReg_advance_keeps (s : State) (d : BitVec 5) (v : Word) : s.Effect clears writes (s.setReg d v).advance := by
  obtain ⟨hpc, hflags, -, hframe⟩ := s.setReg_advance_effect d v
  exact hframe.effect (fun h => by rw [hpc]; exact aligned_npc h) (.inl hflags)

/-- A write of `sysctl` whose reserved bits are zero (R37). -/
theorem State.setSysctl_effect {v : Word} (hv : v.extractLsb' 1 30 = 0) (hclears : clears) :
    s.Effect clears writes (State.advance { s with sysctl := v }) where
  wellShaped hs := { hs with pcAligned := aligned_npc hs.pcAligned, sysctlReserved := hv }
  idle hs := hs.congr rfl rfl rfl
  sysT _ := .inr (.inr hclears)
  flags := .inl rfl

/-- A write of `inttab` whose reserved bits are zero (R38). -/
theorem State.setInttab_effect {v : Word} (hv : v.extractLsb' 0 3 = 0) :
    s.Effect clears writes (State.advance { s with inttab := v }) where
  wellShaped hs := { hs with pcAligned := aligned_npc hs.pcAligned, inttabReserved := hv }
  idle hs := hs.congr rfl rfl rfl
  sysT ht := .inl ht
  flags := .inl rfl

/-- A write of a valid value to `copen`: a unit that ends disabled was idle or is emptied (R47, R273). -/
theorem State.writeCopen_effect {v : Word} (hreserved : v.extractLsb' 8 24 = 0)
    (hpresent : v.extractLsb' 0 8 &&& ~~~s.cfg.copPresent = 0) : s.Effect clears writes (s.writeCopen v).advance := by
  obtain ⟨hcopen, hswitched, -, hframe⟩ := s.writeCopen_spec v
  refine ⟨fun hs => ?_, fun hs n hn => ?_, fun ht => .inl ?_, .inl ?_⟩
  · have hkept : State.WellShaped { s with copen := v } :=
      { hs with copenReserved := hreserved, copenPresent := hpresent }
    have hmoved : (State.advance { s with copen := v }).WellShaped := { hkept with pcAligned := aligned_npc hs.pcAligned }
    rw [hframe]
    exact hmoved.congr rfl rfl rfl rfl rfl rfl
  · obtain ⟨hsame, -, hoff⟩ := hswitched n
    have hv : v.getLsbD n.toNat = false := hcopen ▸ hn
    cases hold : s.copen.getLsbD n.toNat with
    | false =>
      obtain ⟨hcop, herror⟩ := hsame (hv.trans hold.symm)
      obtain ⟨hqueue, hnone⟩ := hs n hold
      exact ⟨(congrArg Cop.queue hcop).trans hqueue, herror.trans hnone⟩
    | true =>
      obtain ⟨hcop, herror⟩ := hoff hv hold
      exact ⟨congrArg Cop.queue hcop, herror⟩
  · rw [hframe]
    exact ht
  · rw [hframe]
    rfl

/-- A control-word write to an enabled unit (R46, R271). -/
theorem State.sameBeyondUnit_ctlWrite (s : State) (n : BitVec 3) (v : Word) : s.SameBeyondUnit n (s.ctlWrite n v) := by
  unfold State.ctlWrite
  cases s.kind n with
  | fpu => exact s.sameBeyondUnit_fpuCtlWrite n v
  | other rd wr => exact State.sameBeyondUnit_setCop n s _

/-- A register write to a unit (R277, log 18). -/
theorem State.sameBeyondUnit_mapWrite (s : State) (n : BitVec 3) (i : BitVec 5) (v : Word) :
    s.SameBeyondUnit n (s.mapWrite (1#1 ++ n) i v) := by
  rw [State.mapWrite_unit]
  cases s.kind n with
  | fpu =>
    obtain ⟨c, hset, -⟩ := s.cpuUnitWrite_setCop n i v
    exact hset ▸ State.sameBeyondUnit_setCop n s c
  | other rd wr => exact .refl n s

/-- The value check of Map 1 (R37, R38). -/
theorem State.validValue_map1 (s : State) (d : BitVec 5) (v : Word) : (s.validValue 1 d v).1 =
    if d = 0 then v.extractLsb' 1 30 == 0 else if d = 2 then v.extractLsb' 0 3 == 0 else true := by
  change (if d = 0 then (v.extractLsb' 1 30 == 0, s) else if d = 2 then (v.extractLsb' 0 3 == 0, s) else (true, s)).1 = _
  rw [apply_ite Prod.fst, apply_ite Prod.fst]

/-- What a write of a valid value in Map 1 keeps (R36 to R39). -/
theorem State.mapWrite_map1_effect {d : BitVec 5} {v : Word} (hvalid : (s.validValue 1 d v).1 = true) (hclears : d = 0 → clears) :
    s.Effect clears writes (s.mapWrite 1 d v).advance := by
  rw [s.validValue_map1] at hvalid
  by_cases h0 : d = 0
  · subst h0
    exact State.setSysctl_effect (beq_iff_eq.1 hvalid) (hclears rfl)
  · by_cases h2 : d = 2
    · subst h2
      exact State.setInttab_effect (beq_iff_eq.1 hvalid)
    · have hwrite : s.mapWrite 1 d v = { s with intret := v } := (if_neg h0).trans (if_neg h2)
      rw [hwrite]
      exact .of_core rfl id aligned_npc (.inl rfl)

/-- What a write of a valid value in Map 4 keeps (R46, R47). -/
theorem State.mapWrite_map4_effect {d : BitVec 5} {v : Word} (hwritable : s.writable 4 d = .defined)
    (hvalid : d = 30 → (s.validValue 4 30 v).1 = true) : s.Effect clears writes (s.mapWrite 4 d v).advance := by
  obtain ⟨n, rfl, he⟩ | rfl := (s.writable_map4 d).1 hwritable
  · rw [State.mapWrite_ctl]
    exact (s.sameBeyondUnit_ctlWrite n v).effect_advance he
  · have hcopen := hvalid rfl
    rw [s.validValue_copen, Bool.and_eq_true, beq_iff_eq, beq_iff_eq] at hcopen
    exact State.writeCopen_effect hcopen.1 hcopen.2

/-- What the write of a MOV keeps, once its register is writable and its value valid. -/
theorem State.mapWrite_effect {m : BitVec 4} {d : BitVec 5} {v : Word} {k : Nat} (hwritable : s.writable m d = .defined)
    (hvalid : (s.validValue m d v).1 = true) (hclears : m = 1 → d = 0 → clears) :
    s.Effect clears writes (State.mapWrite { s with fresh := k } m d v).advance := by
  apply State.Effect.after_fresh (k := k)
  rcases map_cases m with rfl | rfl | rfl | rfl | rfl | rfl | rfl | rfl | ⟨n, rfl⟩
  · exact State.setReg_advance_keeps _ d v
  · rw [s.validValue_map1, ← State.validValue_map1 { s with fresh := k }] at hvalid
    exact State.mapWrite_map1_effect hvalid (hclears rfl)
  · exact .of_core rfl id aligned_npc (.inl rfl)
  · cases hwritable
  · refine State.mapWrite_map4_effect hwritable ?_
    rintro rfl
    exact hvalid
  · cases hwritable
  · cases hwritable
  · cases hwritable
  · rw [State.writable_unit, (s.unitAccess_iff n d true).1] at hwritable
    exact (State.sameBeyondUnit_mapWrite _ n d v).effect_advance hwritable.1

/-- What a MOV keeps: its check decides between an exception, a skip, a read and a write (R144). -/
theorem exec_mov_effect {d i : BitVec 5} {l r : Bool} {c : Cond} {m : BitVec 4} (h : exec (.mov d i l c r m) s = .next t) :
    s.Effect (SetsSysctl (.mov d i l c r m)) writes t := by
  cases haccess : s.movAccess d i r m with
  | undefined => exact State.raise_effect ((exec_mov_of_undefined haccess).symm.trans h)
  | undescribed => cases (exec_mov_of_undescribed haccess).symm.trans h
  | defined =>
    cases hc : c.holds s.flags with
    | false =>
      cases (exec_mov_of_skipped hc haccess).symm.trans h
      exact s.advance_effect
    | true =>
      cases r with
      | false =>
        cases (exec_mov_read d i l c m s hc haccess).symm.trans h
        rw [s.mapRead_frame m i]
        exact (State.setReg_advance_keeps _ d _).after_fresh
      | true =>
        rw [exec_mov_write d i l c m s hc haccess, s.validValue_frame m d (s.reg i)] at h
        split at h
        next hvalid =>
          cases h
          refine State.mapWrite_effect haccess hvalid ?_
          rintro rfl rfl
          exact ⟨i, l, c, rfl⟩
        next => exact (State.raise_effect h).after_fresh

end MovEffect

/-! ### Every other instruction -/

section ExecEffect

variable {clears writes : Prop} {s t : State}

/-- A result write: ADDI to XOR and LDFLAGS (R180 to R185, R225). -/
theorem State.writeResult_keeps {d : BitVec 5} {c : Bool} {res : Word × BitVec 4} (hwrites : c = false → writes)
    (h : s.writeResult d c res = .next t) : s.Effect clears writes t := by
  obtain ⟨u, hwritten, hpc, -, hkept, -, hframe⟩ := s.writeResult_effect d c res
  cases hwritten.symm.trans h
  refine hframe.effect (fun ha => by rw [hpc]; exact aligned_npc ha) ?_
  cases c with
  | false => exact .inr (hwrites rfl)
  | true => exact .inl (hkept rfl)

/-- A jump to an aligned target (R203, R204). -/
theorem State.jumpIf_effect (s : State) (taken : Bool) (l : BitVec 5) {target : Word}
    (htarget : s.pc.extractLsb' 0 2 = 0 → target.extractLsb' 0 2 = 0) :
    s.Effect clears writes (s.jumpIf taken l target) := by
  refine (s.sameBeyondCore_jumpIf taken l target).effect (fun h => ?_) (.inl (s.jumpIf_flags taken l target))
  rw [s.jumpIf_pc]
  cases taken with
  | false => exact aligned_npc h
  | true => exact htarget h

theorem exec_jmpr_effect {c : Cond} {l r : BitVec 5} (h : exec (.jmpr c l r) s = .next t) : s.Effect clears writes t := by
  by_cases haligned : (s.reg r).toNat % 4 = 0
  · cases (exec_jmpr_of_aligned c l haligned).symm.trans h
    exact s.jumpIf_effect _ l fun _ => (lowTwoBits_eq_zero_iff _).2 haligned
  · exact State.raise_effect ((exec_jmpr_of_unaligned c l haligned).symm.trans h)

/-- A misaligned access is an exception or a refusal (R72). -/
theorem misalignedAccess_effect {a : Word} (h : misalignedAccess a s = .next t) : s.Effect clears writes t := by
  unfold misalignedAccess at h
  split at h
  · exact State.raise_effect h
  · cases h

/-- What a completed store changes: memory, and of the registers at most its base (R161). -/
theorem State.afterSt_frame (s : State) (d i : BitVec 5) (w : BitVec 2) (p : Bool) : s.afterSt d i w p =
    { s with
      x := (s.afterSt d i w p).x, mem := (s.afterSt d i w p).mem, storedTo := (s.afterSt d i w p).storedTo,
      pc := s.pc + 4 } := by
  cases p with
  | false => rfl
  | true =>
    by_cases hd : d = 0
    · simp only [State.afterSt, State.setReg, if_pos hd]
      rfl
    · simp only [State.afterSt, State.setReg, if_neg hd]
      rfl

/-- What a completed load changes: registers and pc (R162). -/
theorem State.sameBeyondCore_afterLd (s : State) (d i : BitVec 5) (w : BitVec 2) (p : Bool) :
    s.SameBeyondCore (s.afterLd d i w p) := by
  unfold State.afterLd
  cases p with
  | false => exact (s.sameBeyondCore_setReg d _).trans (State.sameBeyondCore_advance _)
  | true =>
    exact ((s.sameBeyondCore_setReg i _).trans (State.sameBeyondCore_setReg _ d _)).trans (State.sameBeyondCore_advance _)

@[simp] theorem State.afterLd_pc (s : State) (d i : BitVec 5) (w : BitVec 2) (p : Bool) :
    (s.afterLd d i w p).pc = s.pc + 4 := by
  cases p <;> simp [State.afterLd]

@[simp] theorem State.afterLd_flags (s : State) (d i : BitVec 5) (w : BitVec 2) (p : Bool) :
    (s.afterLd d i w p).flags = s.flags := by
  cases p <;> simp [State.afterLd]

/-- Everything ST can do when it answers a next state. -/
theorem execSt_next {d i : BitVec 5} {w : BitVec 2} {p : Bool} (h : execSt d i w p s = .next t) :
    (∃ e, s.raise e = .next t) ∨ misalignedAccess (s.storeAddr d w p) s = .next t ∨ t = s.afterSt d i w p := by
  unfold execSt at h
  split at h
  · exact .inl ⟨_, h⟩
  · dsimp only at h
    split at h
    · exact .inr (.inl h)
    · split at h
      · exact .inl ⟨_, h⟩
      · cases h
        exact .inr (.inr rfl)

/-- Everything LD can do when it answers a next state. -/
theorem execLd_next {d i : BitVec 5} {w : BitVec 2} {p : Bool} (h : execLd d i w p s = .next t) :
    (∃ e, s.raise e = .next t) ∨ misalignedAccess (s.reg i) s = .next t ∨ t = s.afterLd d i w p := by
  unfold execLd State.load at h
  split at h
  · exact .inl ⟨_, h⟩
  · dsimp only at h
    split at h
    · exact .inr (.inl h)
    · by_cases hmap : Config.accessible s.cfg .read (s.reg i) (accessSize w)
      · rw [if_pos hmap] at h
        cases h
        exact .inr (.inr rfl)
      · rw [if_neg hmap] at h
        exact .inl ⟨_, h⟩

theorem execSt_effect {d i : BitVec 5} {w : BitVec 2} {p : Bool} (h : execSt d i w p s = .next t) :
    s.Effect clears writes t := by
  obtain ⟨e, hraise⟩ | hmisaligned | rfl := execSt_next h
  · exact State.raise_effect hraise
  · exact misalignedAccess_effect hmisaligned
  · have hframe := s.afterSt_frame d i w p
    refine .of_core ?_ (fun hm => ?_) ?_ (.inl ?_)
    · rw [hframe]
    · rw [State.afterSt_mem]
      exact Memory.wf_writeLE hm _ _ _
    · rw [hframe]
      exact aligned_npc
    · rw [hframe]

theorem execLd_effect {d i : BitVec 5} {w : BitVec 2} {p : Bool} (h : execLd d i w p s = .next t) :
    s.Effect clears writes t := by
  obtain ⟨e, hraise⟩ | hmisaligned | rfl := execLd_next h
  · exact State.raise_effect hraise
  · exact misalignedAccess_effect hmisaligned
  · refine (s.sameBeyondCore_afterLd d i w p).effect (fun ha => ?_) (.inl (s.afterLd_flags d i w p))
    rw [State.afterLd_pc]
    exact aligned_npc ha

theorem execInp_effect {d : BitVec 5} {p : BitVec 8} {w : BitVec 5} (h : execInp d p w s = .next t) :
    s.Effect clears writes t := by
  cases h
  unfold State.portIn
  split
  · exact .of_core rfl id aligned_npc (.inl rfl)
  · exact .of_core rfl id aligned_npc (.inl rfl)

theorem invokeWait_effect {n : BitVec 3} {f : BitVec 6} {p : BitVec 20} (h : invokeWait n f p s = .next t) :
    s.Effect clears writes t := by
  unfold invokeWait at h
  split at h
  next he =>
    obtain ⟨u, hwait, hmoved⟩ := andThen_next h
    cases hmoved
    exact ((State.sameBeyondUnit_setCop n s _).trans (drainList_frame hwait)).effect_advance he
  next => exact State.raise_effect h

theorem invokeNoWait_effect {n : BitVec 3} {f : BitVec 6} {p : BitVec 20} (h : invokeNoWait n f p s = .next t) :
    s.Effect clears writes t := by
  unfold invokeNoWait at h
  split at h
  next he =>
    cases h
    exact (State.sameBeyondUnit_setCop n s _).effect_advance he
  next => exact State.raise_effect h

/-- What each CPU instruction keeps. -/
theorem exec_effect {i : Instr} (hcpu : i.toUnit = none) (h : exec i s = .next t) :
    s.Effect (SetsSysctl i) (WritesFlags i) t := by
  cases i with
  | und00 p | undFF p => exact State.raise_effect h
  | pause k => cases h; exact s.advance_effect
  | halt | stop => cases h; exact .of_core rfl id aligned_npc (.inl rfl)
  | mov d i l c r m => exact exec_mov_effect h
  | st d i w p => exact execSt_effect h
  | ld d i w p => exact execLd_effect h
  | lra d x o => cases h; exact s.setReg_advance_keeps d _
  | addi d hi c x k =>
    refine State.writeResult_keeps ?_ h
    rintro rfl
    exact .inl ⟨d, hi, x, k, rfl⟩
  | add d a b c k p =>
    refine State.writeResult_keeps ?_ h
    rintro rfl
    exact .inr (.inl ⟨d, a, b, k, p, rfl⟩)
  | sub d a b c k p =>
    refine State.writeResult_keeps ?_ h
    rintro rfl
    exact .inr (.inr (.inl ⟨d, a, b, k, p, rfl⟩))
  | and d a b c k p =>
    refine State.writeResult_keeps ?_ h
    rintro rfl
    exact .inr (.inr (.inr (.inl ⟨d, a, b, k, p, rfl⟩)))
  | or d a b c k p =>
    refine State.writeResult_keeps ?_ h
    rintro rfl
    exact .inr (.inr (.inr (.inr (.inl ⟨d, a, b, k, p, rfl⟩))))
  | xor d a b c k p =>
    refine State.writeResult_keeps ?_ h
    rintro rfl
    exact .inr (.inr (.inr (.inr (.inr (.inl ⟨d, a, b, k, p, rfl⟩)))))
  | bsl | bsr => cases h
  | jmp c l o =>
    cases (exec_jmp c l o s).symm.trans h
    exact s.jumpIf_effect _ l fun ha => aligned_add (aligned_npc ha) (aligned_jmpDisp o)
  | jmpr c l r => exact exec_jmpr_effect h
  | inp d p w => exact execInp_effect h
  | out i p w => cases h; exact .of_core rfl id aligned_npc (.inl rfl)
  | ldflags d => cases h; exact s.setReg_advance_keeps d _
  | stflags r =>
    cases h
    exact .of_core rfl id aligned_npc (.inr (.inr (.inr (.inr (.inr (.inr (.inr ⟨r, rfl⟩)))))))
  | cpi0 f p | cpi1 f p | cpi2 f p | cpi3 f p | cpi4 f p | cpi5 f p | cpi6 f p | cpi7 f p => exact invokeWait_effect h
  | ncpi0 f p | ncpi1 f p | ncpi2 f p | ncpi3 f p | ncpi4 f p | ncpi5 f p | ncpi6 f p | ncpi7 f p =>
    exact invokeNoWait_effect h
  | cpi0ef f p | cpi1ef f p | cpi2ef f p | cpi3ef f p | cpi4ef f p | cpi5ef f p | cpi6ef f p | cpi7ef f p =>
    exact invokeWait_effect h
  | ncpi0ef f p | ncpi1ef f p | ncpi2ef f p | ncpi3ef f p | ncpi4ef f p | ncpi5ef f p | ncpi6ef f p | ncpi7ef f p =>
    exact invokeNoWait_effect h
  | fpause | fpmov | cvtf2f | cvti2f | cvtf2i | fadd | fsub | fmul | ffma => cases hcpu

end ExecEffect

/-! ### A boundary and a step -/

/-- What a boundary does once everything has arrived: it executes an instruction, or what it does keeps all that
`State.Effect` says. -/
theorem atBoundary_effect {s t : State} (h : atBoundary s = .next t) :
    s.Effect False False t ∨
      ∃ i w, s.status = .running ∧ s.chooseInterrupt = none ∧ s.fetch = .word w ∧ decode w = .ok i ∧ exec i s = .next t := by
  have hidle : s.Effect False False s := .of_core rfl id id (.inl rfl)
  unfold atBoundary at h
  split at h
  · cases h
    exact .inl hidle
  · exact .inl (takeInterrupt_effect h)
  · exact .inl (takeInterrupt_effect h)
  · cases h
    exact .inl hidle
  next hrunning hnone =>
    unfold runInstruction at h
    split at h
    · exact .inl (State.raise_effect h)
    · cases h
    next w hfetch =>
      unfold runWord at h
      split at h
      next i hdecode => exact .inr ⟨i, w, hrunning, hnone, hfetch, hdecode, h⟩
      next e hdecode =>
        unfold rejectWord at h
        split at h
        · exact .inl (State.raise_effect h)
        · exact .inl (State.raise_effect h)
        · cases h

/-- A step is the arrivals and then a change from the state they leave, which clears t or writes the flags only by an
instruction that does. -/
theorem step_effect {s t : State} (h : step s = .next t) :
    ∃ u, arrivals s = .next u ∧
      u.Effect (∃ i, s.Executes i ∧ SetsSysctl i) (∃ i, s.Executes i ∧ WritesFlags i) t := by
  obtain ⟨u, harrivals, hboundary⟩ := andThen_next h
  refine ⟨u, harrivals, ?_⟩
  obtain heffect | ⟨i, w, hrunning, hnone, hfetch, hdecode, hexec⟩ := atBoundary_effect hboundary
  · exact { heffect with
      sysT := fun ht => (heffect.sysT ht).imp_right (Or.imp_right False.elim)
      flags := heffect.flags.imp_right (Or.imp_right False.elim) }
  · have heffect := exec_effect (toUnit_of_decode hdecode) hexec
    have hexecutes : s.Executes i := ⟨u, w, harrivals, hrunning, hnone, hfetch, hdecode⟩
    exact { heffect with
      sysT := fun ht => (heffect.sysT ht).imp_right (Or.imp_right fun hsets => ⟨i, hexecutes, hsets⟩)
      flags := heffect.flags.imp_right (Or.imp_right fun hwrites => ⟨i, hexecutes, hwrites⟩) }

/-! ### Arrivals -/

/-- A unit that works has work, so it is enabled or nothing changes; an error is signalled by an enabled unit only. -/
theorem applyEvent_idle {e : EnvEvent} {s t : State} (hs : s.DisabledUnitsIdle) (h : applyEvent e s = .next t) :
    t.DisabledUnitsIdle := by
  cases e with
  | nmi | irq v | irqWithdraw v | order vs => cases h; exact hs.congr rfl rfl rfl
  | reset => cases h; exact s.warmReset_idle
  | unitRun n =>
    have hframe : s.SameBeyondUnit n t := runOldest_frame h
    cases hn : s.copen.getLsbD n.toNat with
    | true => exact (hframe.effect (clears := False) (writes := False) hn).idle hs
    | false =>
      obtain ⟨hqueue, -⟩ := hs n hn
      simp only [applyEvent, runOldest, hqueue] at h
      cases h
      exact hs
  | unitError n =>
    cases h
    split
    next hsignal =>
      obtain ⟨henabled, -⟩ := Bool.and_eq_true_iff.1 hsignal
      obtain ⟨-, hn⟩ := Bool.and_eq_true_iff.1 henabled
      exact ((State.sameBeyondUnit_setUnitError n s true).effect (clears := False) (writes := False) hn).idle hs
    next => exact hs

/-- Every event keeps the form of the state. -/
theorem applyEvent_wellShaped {e : EnvEvent} {s t : State} (hs : s.WellShaped) (h : applyEvent e s = .next t) :
    t.WellShaped := by
  by_cases he : e = .reset
  · subst he
    cases h
    exact State.warmReset_wellShaped hs.memory
  · have hsame := applyEvent_sameCpu he h
    rw [hsame]
    exact hs.congr rfl rfl rfl rfl rfl rfl

/-- What every event keeps, the arrivals keep, if the schedule does not matter to it. -/
theorem arrivals_keep {p : State → Prop} (hevent : ∀ e s t, p s → applyEvent e s = .next t → p t)
    (hschedule : ∀ s rest, p s → p { s with schedule := rest }) {s t : State} (hs : p s) (h : arrivals s = .next t) : p t := by
  have hevents : ∀ es (u : State), p u → applyEvents es u = .next t → p t := by
    intro es
    induction es with
    | nil =>
      intro u hu hnone
      cases hnone
      exact hu
    | cons e es ih =>
      intro u hu hcons
      obtain ⟨v, hfirst, hrest⟩ := andThen_next hcons
      exact ih v (hevent e u v hu hfirst) hrest
  unfold arrivals at h
  split at h
  · cases h
    exact hs
  next es rest _ => exact hevents es _ (hschedule s rest hs) h

/-! ### The four statements -/

/-- Settles O3: the arrivals keep the form of the state, and so does what follows them. -/
theorem stepKeepsWellShaped : Obligations.StepKeepsWellShaped := by
  unfold Obligations.StepKeepsWellShaped
  intro s t hs h
  obtain ⟨u, harrivals, heffect⟩ := step_effect h
  exact heffect.wellShaped (arrivals_keep (fun _ _ _ => applyEvent_wellShaped)
    (fun _ _ hu => hu.congr rfl rfl rfl rfl rfl rfl) hs harrivals)

/-- Settles O4: the arrivals leave disabled units idle, and so does what follows them. -/
theorem stepKeepsDisabledUnitsIdle : Obligations.StepKeepsDisabledUnitsIdle := by
  unfold Obligations.StepKeepsDisabledUnitsIdle
  intro s t hs h
  obtain ⟨u, harrivals, heffect⟩ := step_effect h
  exact heffect.idle (arrivals_keep (fun _ _ _ => applyEvent_idle) (fun _ _ hu => hu.congr rfl rfl rfl) hs harrivals)

/-- Settles O14: without an external RESET the arrivals leave `sysctl` as it is, and what follows clears t only as
`State.Effect` says. -/
theorem onlyMovAndResetClearT : Obligations.OnlyMovAndResetClearT := by
  unfold Obligations.OnlyMovAndResetClearT
  intro s t h hset hclear
  obtain ⟨u, harrivals, heffect⟩ := step_effect h
  by_cases hreset : s.ResetArrives
  · exact .inl hreset
  · have hsame := arrivals_sameCpu hreset harrivals
    have hu : u.sysT = true := by
      rw [hsame]
      exact hset
    obtain hkept | hisReset | ⟨i, hexecutes, r, l, c, rfl⟩ := heffect.sysT hu
    · cases hkept.symm.trans hclear
    · exact .inr (.inl (hisReset.of_congr (by rw [hsame]) (by rw [hsame])))
    · exact .inr (.inr ⟨r, l, c, hexecutes⟩)

/-- Settles O15: without an external RESET the arrivals leave the flags as they are, and what follows writes them only as
`State.Effect` says. -/
theorem flagsWriters : Obligations.FlagsWriters := by
  unfold Obligations.FlagsWriters
  intro s t h hchanged
  obtain ⟨u, harrivals, heffect⟩ := step_effect h
  by_cases hreset : s.ResetArrives
  · exact .inl hreset
  · have hsame := arrivals_sameCpu hreset harrivals
    have hu : u.flags = s.flags := by rw [hsame]
    obtain hkept | hisReset | hwrites := heffect.flags
    · exact absurd (hkept.trans hu) hchanged
    · exact .inr (.inl (hisReset.of_congr (by rw [hsame]) (by rw [hsame])))
    · exact .inr (.inr hwrites)

end Sys2Proof.Machine

/-! PROOFS. ST and LD (41_load_store.md R160 to R162): what a completed access leaves and when one traps; and IN (44_io_flags.md
R223). -/

namespace Sys2Proof.Machine

/-! ### Completed accesses -/

/-- A completed store leaves every byte it does not cover (R75). -/
theorem State.byteAt_afterSt_ne (s : State) (d i : BitVec 5) (w : BitVec 2) (p : Bool) {b : Word}
    (hb : ∀ k < accessSize w, b ≠ s.storeAddr d w p + BitVec.ofNat 32 k) : (s.afterSt d i w p).byteAt b = s.byteAt b := by
  unfold State.byteAt
  rw [State.afterSt_mem]
  exact Memory.read_writeLE_ne _ _ _ _ _ hb

/-- Settles O33: the store completes in `State.afterSt`, whose bytes, registers and frame the lemmas above give. -/
theorem stEffect : Obligations.StEffect := by
  unfold Obligations.StEffect
  intro d i w p s hd hw hm n addr haligned hmap
  refine ⟨_, exec_st_of_accessible i hd hw haligned hmap, fun k hk => State.byteAt_afterSt hm d i hw p hk,
    fun b hb => s.byteAt_afterSt_ne d i w p hb, rfl, fun j => ?_, s.afterSt_frame d i w p⟩
  rw [State.afterSt_reg]
  simp only [ne_eq, hd, not_false_eq_true, and_true, addr]

/-- What a load of each size delivers: the bytes from the address up, little-endian, zero-extended (R71, R74). -/
theorem State.readLE_accessSize (s : State) (a : Word) {w : BitVec 2} (hw : w ≠ 3) : s.mem.readLE a (accessSize w) =
    if w = 0 then (s.byteAt a).setWidth 32
    else if w = 1 then (s.byteAt (a + 1) ++ s.byteAt a).setWidth 32
    else s.byteAt (a + 3) ++ s.byteAt (a + 2) ++ s.byteAt (a + 1) ++ s.byteAt a := by
  have hcases : ∀ w : BitVec 2, w ≠ 3 → w = 0 ∨ w = 1 ∨ w = 2 := by decide
  obtain rfl | rfl | rfl := hcases w hw
  · exact Memory.readLE_one _ a
  · exact Memory.readLE_two _ a
  · exact Memory.readLE_four _ a

/-- Settles O34: the load completes in `State.afterLd`, and the size decides which bytes it delivers. -/
theorem ldEffect : Obligations.LdEffect := by
  unfold Obligations.LdEffect
  intro d i w p s hi hw n a v haligned hmap
  refine ⟨_, exec_ld_of_accessible d p hi hw haligned hmap, s.afterLd_pc d i w p, s.afterLd_flags d i w p, fun j => ?_,
    s.sameBeyondCore_afterLd d i w p⟩
  rw [State.afterLd_reg, s.readLE_accessSize _ hw]
  simp only [ne_eq, hi, not_false_eq_true, and_true]
  rfl

/-! ### Traps -/

section MemoryTraps

variable {d i : BitVec 5} {w : BitVec 2} {p : Bool} {s : State} {a : Word}

/-- Base register 0 or size code 3 fails the operand check (R160). -/
theorem operands_invalid {b : BitVec 5} (h : b = 0 ∨ w = 3) : (decide (b = 0) || decide (w = 3)) = true := by
  rw [Bool.or_eq_true, decide_eq_true_iff, decide_eq_true_iff]
  exact h

theorem exec_st_of_invalid (h : d = 0 ∨ w = 3) : exec (.st d i w p) s = s.raise .invalidInstruction :=
  if_pos (operands_invalid h)

theorem exec_ld_of_invalid (h : i = 0 ∨ w = 3) : exec (.ld d i w p) s = s.raise .invalidInstruction :=
  if_pos (operands_invalid h)

theorem not_aligned {n : Nat} (h : a.toNat % n ≠ 0) : aligned a n = false := beq_eq_false_iff_ne.2 h

theorem exec_st_of_misaligned (hd : d ≠ 0) (hw : w ≠ 3) (h : (s.storeAddr d w p).toNat % accessSize w ≠ 0) :
    exec (.st d i w p) s = misalignedAccess (s.storeAddr d w p) s := by
  change execSt d i w p s = _
  simp only [execSt, operands_valid hd hw, not_aligned h, Bool.false_eq_true, if_false, Bool.not_false, if_true]

theorem exec_ld_of_misaligned (hi : i ≠ 0) (hw : w ≠ 3) (h : (s.reg i).toNat % accessSize w ≠ 0) :
    exec (.ld d i w p) s = misalignedAccess (s.reg i) s := by
  change execLd d i w p s = _
  simp only [execLd, operands_valid hi hw, not_aligned h, Bool.false_eq_true, if_false, Bool.not_false, if_true]

theorem exec_st_of_rejected (hd : d ≠ 0) (hw : w ≠ 3) (haligned : (s.storeAddr d w p).toNat % accessSize w = 0)
    (hmap : Config.accessible s.cfg .write (s.storeAddr d w p) (accessSize w) = false) :
    exec (.st d i w p) s = s.raise .busFault := by
  change execSt d i w p s = _
  simp only [execSt, operands_valid hd hw, aligned_of_mod_eq_zero haligned, hmap, Bool.not_true, Bool.false_eq_true,
    if_false, Bool.not_false, if_true]

theorem exec_ld_of_rejected (hi : i ≠ 0) (hw : w ≠ 3) (haligned : (s.reg i).toNat % accessSize w = 0)
    (hmap : Config.accessible s.cfg .read (s.reg i) (accessSize w) = false) :
    exec (.ld d i w p) s = s.raise .busFault := by
  change execLd d i w p s = _
  simp only [execLd, operands_valid hi hw, aligned_of_mod_eq_zero haligned, State.load, hmap, Bool.not_true,
    Bool.false_eq_true, if_false]

/-- MISALIGN_POLICY decides between EX[1] and a refusal (R72). -/
theorem misalignedAccess_of_vectorTo {h : Word} (ht : s.sysT = false) (hv : s.VectorTo 1 h) : misalignedAccess a s =
    if s.cfg.misalign = .raise then .next (s.enterException h) else .refused (.misalignedAccess a) := by
  unfold misalignedAccess
  cases s.cfg.misalign with
  | raise => exact State.raise_of_vectorTo (e := .busFault) ht hv
  | refuse => rfl

end MemoryTraps

/-- Settles O35: the checks in the order of R360, each with what it raises. -/
theorem memoryTraps : Obligations.MemoryTraps := by
  unfold Obligations.MemoryTraps
  intro d i w p s ht n
  refine ⟨fun a hv => ?_, fun a hv hw => ?_⟩
  · have hraise : s.raise .invalidInstruction = .next (s.enterException a) :=
      State.raise_of_vectorTo (e := .invalidInstruction) ht hv
    exact ⟨fun h => (exec_st_of_invalid h).trans hraise, fun h => (exec_ld_of_invalid h).trans hraise⟩
  · have hraise : s.raise .busFault = .next (s.enterException a) := State.raise_of_vectorTo (e := .busFault) ht hv
    exact ⟨fun hd h => (exec_st_of_misaligned hd hw h).trans (misalignedAccess_of_vectorTo ht hv),
      fun hi h => (exec_ld_of_misaligned hi hw h).trans (misalignedAccess_of_vectorTo ht hv),
      fun hd h hmap => (exec_st_of_rejected hd hw h hmap).trans hraise,
      fun hi h hmap => (exec_ld_of_rejected hi hw h hmap).trans hraise⟩

/-! ### IN -/

/-- What a read of `n` bits from a port gives and leaves: a value of `n` bits, which joins the trace, and is the next answer where
there is one (R222, log 6). -/
theorem State.portIn_spec (s : State) (p : BitVec 8) {n : Nat} (hn : n ≤ 32) :
    (s.portIn p n).1.toNat < 2 ^ n ∧
      (∀ a rest, s.portAnswers = a :: rest →
        (s.portIn p n).1.toNat = a.toNat % 2 ^ n ∧ (s.portIn p n).2.portAnswers = rest) ∧
      (s.portAnswers = [] → (s.portIn p n).2.portAnswers = []) ∧
      (s.portIn p n).2 = { s with
        portAnswers := (s.portIn p n).2.portAnswers, ioTrace := s.ioTrace ++ [.input p n (s.portIn p n).1],
        fresh := (s.portIn p n).2.fresh } := by
  have hbits (v : Word) : (lowBits v n).toNat < 2 ^ n := by
    rw [lowBits_toNat v n hn]
    exact Nat.mod_lt _ (Nat.two_pow_pos n)
  unfold State.portIn
  cases h : s.portAnswers with
  | nil => exact ⟨hbits _, nofun, fun _ => h, rfl⟩
  | cons a rest =>
    refine ⟨hbits a, fun b later hb => ?_, nofun, rfl⟩
    cases hb
    exact ⟨lowBits_toNat a n hn, rfl⟩

/-- Settles O46: the port's bits enter at the top of the transfer register. -/
theorem inEffect : Obligations.InEffect := by
  unfold Obligations.InEffect
  intro d p w s
  obtain ⟨hcount, hle, hpos⟩ := bitCount_spec w
  rw [← hcount]
  obtain ⟨hlt, hanswer, hnone, hframe⟩ := s.portIn_spec p hle
  have hexec : exec (.inp d p w) s = .next ((s.portIn p (bitCount w)).2.setIoReg d
      (shiftIn (s.ioReg d) (s.portIn p (bitCount w)).1 (bitCount w))).advance := rfl
  have hio (j : BitVec 5) : (s.portIn p (bitCount w)).2.ioReg j = s.ioReg j := by
    rw [hframe]
    rfl
  refine ⟨_, _, hexec, hlt, ?_, hanswer, hnone, ?_, fun j hj => ?_, fun b => ?_, ?_⟩
  · rw [State.advance_ioTrace, State.setIoReg_ioTrace, hframe]
  · rw [State.ioReg_advance, State.ioReg_setIoReg, if_pos rfl]
    exact shiftIn_getLsbD _ _ _ hpos hle hlt
  · rw [State.ioReg_advance, State.ioReg_setIoReg, if_neg hj, hio]
  · rw [State.byteAt_advance, State.byteAt_setIoReg]
    exact State.byteAt_congr (by rw [hframe]) b
  · rw [hframe]
    rfl

end Sys2Proof.Machine

/-! PROOFS. The CPI group (45_coprocessor_invoke.md R241 to R246): the 32 instructions as two operations, what each leaves, and the
delivery of a unit error (60_exceptions.md R358). -/

namespace Sys2Proof.Machine

/-! ### The 32 instructions as two operations -/

section Forms

variable (x : BitVec 3) (s : State)

theorem exec_cpiOf (f : BitVec 4) (p : BitVec 20) : exec (Instr.cpiOf x f p) s = invokeWait x (f.setWidth 6) p s := by
  rcases slot_cases x with rfl | rfl | rfl | rfl | rfl | rfl | rfl | rfl <;> rfl

theorem exec_cpiefOf (f : BitVec 6) (p : BitVec 18) : exec (Instr.cpiefOf x f p) s = invokeWait x f (p.setWidth 20) s := by
  rcases slot_cases x with rfl | rfl | rfl | rfl | rfl | rfl | rfl | rfl <;> rfl

theorem exec_ncpiOf (f : BitVec 4) (p : BitVec 20) : exec (Instr.ncpiOf x f p) s = invokeNoWait x (f.setWidth 6) p s := by
  rcases slot_cases x with rfl | rfl | rfl | rfl | rfl | rfl | rfl | rfl <;> rfl

theorem exec_ncpiefOf (f : BitVec 6) (p : BitVec 18) :
    exec (Instr.ncpiefOf x f p) s = invokeNoWait x f (p.setWidth 20) s := by
  rcases slot_cases x with rfl | rfl | rfl | rfl | rfl | rfl | rfl | rfl <;> rfl

end Forms

section Invoke

variable {x : BitVec 3} {s t : State} {f : BitVec 6} {p : BitVec 20}

/-- A unit that is not present or not enabled makes all forms EX[2] (R242 to R245). -/
theorem invoke_of_disabled (h : s.enabled x = false) :
    invokeWait x f p s = s.raise .invalidInstruction ∧ invokeNoWait x f p s = s.raise .invalidInstruction := by
  constructor
  · rw [invokeWait, h]
    rfl
  · rw [invokeNoWait, h]
    rfl

theorem invokeNoWait_of_enabled (h : s.enabled x = true) : invokeNoWait x f p s = .next (s.issue x f p).advance := by
  rw [invokeNoWait, if_pos h]

theorem invokeWait_of_enabled (h : s.enabled x = true) :
    invokeWait x f p s = andThen (waitUnit x (s.issue x f p)) fun u => .next u.advance := by
  rw [invokeWait, if_pos h]

/-- The slot right after an instruction was issued to it. -/
theorem State.issue_cop (s : State) (x : BitVec 3) (f : BitVec 6) (p : BitVec 20) : (s.issue x f p).cop x =
    { s.cop x with queue := (s.cop x).queue ++ [.instr f p], opU := true } := by
  rw [State.issue, State.cop_setCop, if_pos rfl]

/-! ### Opaque coprocessors -/

/-- On an opaque coprocessor a CPI form completes, whatever was queued (log 18). -/
theorem invokeWait_of_opaque {rd wr : List (BitVec 5)} (he : s.enabled x = true) (hk : s.kind x = .other rd wr) :
    invokeWait x f p s = .next (s.setCop x { s.cop x with queue := [], opU := true }).advance := by
  obtain ⟨u, hdrained, hu⟩ := drainList_opaque x ((s.issue x f p).cop x).queue (s.issue x f p) (rd := rd) (wr := wr) hk
  have hnonempty : ((s.issue x f p).cop x).queue ≠ [] := by simp [State.issue_cop]
  rw [invokeWait_of_enabled he, waitUnit, hdrained, hu, if_neg hnonempty, State.issue_cop, State.issue, State.setCop_setCop]
  rfl

/-! ### Waiting -/

/-- A CPI form that completes leaves its queue empty and the CPU's registers as they were (R242). -/
theorem invokeWait_waits (he : s.enabled x = true) (h : invokeWait x f p s = .next t) :
    t.busy x = false ∧ t.pc = s.pc + 4 ∧ t.x = s.x ∧ t.flags = s.flags := by
  rw [invokeWait_of_enabled he] at h
  obtain ⟨u, hwait, hmoved⟩ := andThen_next h
  cases hmoved
  have hnonempty : ((s.issue x f p).cop x).queue ≠ [] := by simp [State.issue_cop]
  have hqueue : (u.cop x).queue = [] := (drainList_queue hwait).trans (if_neg hnonempty)
  obtain ⟨-, hframe, -⟩ := (State.sameBeyondUnit_setCop x s _).trans (drainList_frame hwait)
  refine ⟨?_, ?_, ?_, ?_⟩
  · rw [State.busy, State.cop_advance, hqueue]
    rfl
  · rw [hframe]
    rfl
  · rw [hframe]
    rfl
  · rw [hframe]
    rfl

/-! ### Idle floating-point units -/

theorem runWork_instr (hk : s.kind x = .fpu) : runWork x (.instr f p) s = runFunction x f p (s.markBegun x) := by
  simp only [runWork, hk]

/-- An idle FPU given an instruction by a waiting form runs it at once, with u set and i open (R241, R275). -/
theorem invokeWait_of_idle (he : s.enabled x = true) (hk : s.kind x = .fpu) (hq : (s.cop x).queue = []) :
    invokeWait x f p s =
      andThen (runFunction x f p (s.setCop x { s.cop x with opU := true, opBegun := true })) fun u => .next u.advance := by
  have hbegun : ((s.issue x f p).setQueue x []).markBegun x =
      s.setCop x { s.cop x with opU := true, opBegun := true } := by
    rw [State.markBegun, State.setQueue, State.cop_setCop, if_pos rfl, State.setCop_setCop, State.issue_cop, State.issue,
      State.setCop_setCop, ← hq]
  have hkind : ((s.issue x f p).setQueue x []).kind x = .fpu := hk
  have hwait : waitUnit x (s.issue x f p) =
      andThen (runFunction x f p (s.setCop x { s.cop x with opU := true, opBegun := true })) .next := by
    rw [waitUnit, State.issue_cop, hq, List.nil_append, drainList, runWork_instr hkind, ← hbegun]
    rfl
  rw [invokeWait_of_enabled he, hwait]
  cases runFunction x f p (s.setCop x { s.cop x with opU := true, opBegun := true }) <;> rfl

/-- A payload that decodes runs the function it encodes (R278). -/
theorem runFunction_of_instr {u : UnitInstr} (h : decodeUnit f p = .instr u) : runFunction x f p s = exec (u.toInstr x) s := by
  rw [runFunction, h, exec_toInstr]

/-- The state an invalid unit instruction leaves in an idle FPU: Error 2 signalled, u set, i open (R279). -/
def State.afterInvalid (s : State) (x : BitVec 3) : State :=
  ((s.setCop x { s.cop x with opU := true, opBegun := true }).signalUnitError x 2).advance

theorem State.afterInvalid_cop (s : State) (x : BitVec 3) :
    (s.afterInvalid x).cop x = { s.cop x with opX := 2, opU := true, opBegun := true } := by
  simp [State.afterInvalid, State.signalUnitError, State.cop_setCop]

/-- The only pending error that changes is the unit's own, which is set. -/
theorem State.afterInvalid_unitError (s : State) (x m : BitVec 3) : (s.afterInvalid x).pendingUnitError[m.toNat]'m.isLt =
    if m = x then true else s.pendingUnitError[m.toNat]'m.isLt :=
  State.pendingUnitError_setUnitError _ x m true

theorem State.sameBeyondUnit_afterInvalid (s : State) (x : BitVec 3) :
    s.SameBeyondUnit x { s.afterInvalid x with pc := s.pc } :=
  (State.sameBeyondUnit_setCop x s _).trans (State.sameBeyondUnit_signalUnitError x _ 2)

/-- An invalid unit instruction is Error 2, and one with no row where the policy raises it (R279). -/
theorem runFunction_of_invalid (h : decodeUnit f p = .invalid ∨ (decodeUnit f p = .unlisted ∧ s.cfg.unlistedFunction = .raise)) :
    runFunction x f p s = .next (s.signalUnitError x 2) := by
  obtain h | ⟨h, hp⟩ := h
  · rw [runFunction, h]
  · rw [runFunction, h, hp]

/-- With t clear and every gate closed, the unit error is the only source the next boundary can take. -/
theorem State.afterInvalid_chosen (ht : s.sysT = false) (hgates : ∀ v, ¬ s.GateOpen v) :
    (s.afterInvalid x).chooseInterrupt = some (8 + x.toNat) := by
  have hopen : (s.afterInvalid x).GateOpen (8 + x.toNat) :=
    .inr (.inl ⟨⟨x.toNat, x.isLt⟩, rfl, (s.afterInvalid_unitError x x).trans (if_pos rfl), ht⟩)
  refine State.chosen_of_only_gate hopen ?_
  rintro v (⟨rfl, hnmi⟩ | ⟨u, rfl, hpending, -⟩ | ⟨q, rfl, hirq⟩)
  · exact absurd (.inl ⟨rfl, hnmi⟩) (hgates 7)
  · by_cases hu : BitVec.ofFin u = x
    · rw [← hu]
      rfl
    · have hold : s.pendingUnitError[u] = true :=
        ((s.afterInvalid_unitError x (BitVec.ofFin u)).trans (if_neg hu)).symm.trans hpending
      exact absurd (.inr (.inl ⟨u, rfl, hold, ht⟩)) (hgates (8 + u))
  · exact absurd (.inr (.inr ⟨q, rfl, hirq⟩)) (hgates (32 + q))

/-- The entry of the unit error clears the only one pending (R353). -/
theorem State.afterInvalid_taken (a : Word) (ht : s.sysT = false) (hgates : ∀ v, ¬ s.GateOpen v) (n : Fin 8) :
    ((s.afterInvalid x).enterInterrupt (8 + x.toNat) a).pendingUnitError[n] = false := by
  have hcleared : ((s.afterInvalid x).enterInterrupt (8 + x.toNat) a).pendingUnitError[n] =
      ((s.afterInvalid x).pendingUnitError[n] && decide (8 + x.toNat ≠ 8 + n.val)) :=
    (s.afterInvalid x).clearPending_unitError (8 + x.toNat) n
  have hpending : (s.afterInvalid x).pendingUnitError[n] = if BitVec.ofFin n = x then true else s.pendingUnitError[n] :=
    s.afterInvalid_unitError x (BitVec.ofFin n)
  rw [hcleared, hpending]
  by_cases hn : BitVec.ofFin n = x
  · rw [← hn]
    simp
  · have hnone : s.pendingUnitError[n] = false := by
      rw [Bool.eq_false_iff]
      exact fun hset => hgates (8 + n) (.inr (.inl ⟨n, rfl, hset, ht⟩))
    rw [if_neg hn, hnone, Bool.false_and]

end Invoke

/-! ### The statements -/

/-- Settles O49: both forms are `invokeWait`, which drains an opaque queue. -/
theorem cpiOpaqueCompletes : Obligations.CpiOpaqueCompletes := by
  unfold Obligations.CpiOpaqueCompletes
  intro x rd wr s he hk completes
  have hcompletes {i : Instr} {f : BitVec 6} {p : BitVec 20} (hi : exec i s = invokeWait x f p s) : completes i := by
    refine ⟨_, hi.trans (invokeWait_of_opaque he hk), ?_, fun m hm => ?_, fun b => by simp, rfl⟩
    · rw [State.cop_advance, State.cop_setCop, if_pos rfl]
    · rw [State.cop_advance, State.cop_setCop, if_neg hm]
  exact ⟨fun f p => hcompletes (exec_cpiOf x s f p), fun f p => hcompletes (exec_cpiefOf x s f p)⟩

/-- Settles O51: both forms are `invokeWait`. -/
theorem cpiWaitsForUnit : Obligations.CpiWaitsForUnit := by
  unfold Obligations.CpiWaitsForUnit
  exact fun x s t he => ⟨fun f p h => invokeWait_waits he ((exec_cpiOf x s f p).symm.trans h),
    fun f p h => invokeWait_waits he ((exec_cpiefOf x s f p).symm.trans h)⟩

/-- Settles O52: the state left is that of `State.issue`, one instruction on. -/
theorem ncpiIssues : Obligations.NcpiIssues := by
  unfold Obligations.NcpiIssues
  intro x s he
  refine ⟨fun f p => ⟨_, (exec_ncpiOf x s f p).trans (invokeNoWait_of_enabled he), rfl, s.issue_cop x _ p, ?_⟩,
    fun f p => ⟨_, (exec_ncpiefOf x s f p).trans (invokeNoWait_of_enabled he), rfl, s.issue_cop x f _, ?_⟩⟩
  · exact State.sameBeyondUnit_setCop x s _
  · exact State.sameBeyondUnit_setCop x s _

/-- Settles O53: the four forms are two operations, and both raise EX[2]. -/
theorem cpiDisabledTraps : Obligations.CpiDisabledTraps := by
  unfold Obligations.CpiDisabledTraps
  intro x s hoff i hi
  have hdisabled : s.enabled x = false := by
    rw [State.enabled]
    obtain h | h := hoff
    · rw [h, Bool.false_and]
    · rw [h, Bool.and_false]
  have hraise : exec i s = s.raise .invalidInstruction := by
    obtain ⟨f, p, rfl | rfl⟩ | ⟨f, p, rfl | rfl⟩ := hi
    · exact (exec_cpiOf x s f p).trans (invoke_of_disabled hdisabled).1
    · exact (exec_ncpiOf x s f p).trans (invoke_of_disabled hdisabled).2
    · exact (exec_cpiefOf x s f p).trans (invoke_of_disabled hdisabled).1
    · exact (exec_ncpiefOf x s f p).trans (invoke_of_disabled hdisabled).2
  rw [hraise]
  exact ⟨fun a => State.raise_of_vectorTo (e := .invalidInstruction), fun ht => State.raise_isReset ht _⟩

/-- Settles O50: both forms are `invokeWait`, which runs the function at once on an idle FPU. -/
theorem cpiRunsUnitFunction : Obligations.CpiRunsUnitFunction := by
  unfold Obligations.CpiRunsUnitFunction
  intro x u s he hk hq s1
  refine ⟨fun f p h => ?_, fun f p h => ?_⟩
  · rw [exec_cpiOf, invokeWait_of_idle he hk hq, runFunction_of_instr h]
    rfl
  · rw [exec_cpiefOf, invokeWait_of_idle he hk hq, runFunction_of_instr h]
    rfl

/-- Settles O54: the instruction runs at once and is invalid; the error it signals opens the only gate of the next boundary. -/
theorem invalidUnitInstructionIsDelivered : Obligations.InvalidUnitInstructionIsDelivered := by
  unfold Obligations.InvalidUnitInstructionIsDelivered
  intro x f p i s hi he hk hq
  have hexec : exec i s = invokeWait x f p s := by
    obtain ⟨g, rfl, rfl⟩ | ⟨q, rfl, rfl⟩ := hi
    · exact exec_cpiOf x s g p
    · exact exec_cpiefOf x s f q
  rw [hexec, invokeWait_of_idle he hk hq]
  refine ⟨fun hdecode hpolicy => ?_, fun hinvalid => ?_⟩
  · have hpolicy' : (s.setCop x { s.cop x with opU := true, opBegun := true }).cfg.unlistedFunction = .refuse := hpolicy
    rw [runFunction, hdecode, hpolicy']
    rfl
  · have hrun : runFunction x f p (s.setCop x { s.cop x with opU := true, opBegun := true }) =
        .next ((s.setCop x { s.cop x with opU := true, opBegun := true }).signalUnitError x 2) :=
      runFunction_of_invalid hinvalid
    rw [hrun]
    refine ⟨s.afterInvalid x, rfl, s.afterInvalid_cop x, (s.afterInvalid_unitError x x).trans (if_pos rfl), rfl, rfl,
      s.sameBeyondUnit_afterInvalid x, fun a hrunning hschedule ht hgates hv => ?_⟩
    have hstatus : (s.afterInvalid x).status ≠ .stopped := by
      change s.status ≠ .stopped
      rw [hrunning]
      nofun
    have hstep : step (s.afterInvalid x) = .next ((s.afterInvalid x).enterInterrupt (8 + x.toNat) a) := by
      rw [step_of_no_arrivals (s := s.afterInvalid x) hschedule, atBoundary_of_chosen hstatus (State.afterInvalid_chosen ht hgates)]
      exact takeInterrupt_of_vectorTo (hv.congr rfl rfl rfl)
    exact ⟨_, hstep, rfl, rfl, rfl, rfl, State.afterInvalid_taken a ht hgates, fun j => State.reg_congr rfl j, rfl,
      fun b => State.byteAt_congr rfl b⟩

end Sys2Proof.Machine

/-! PROOFS. The registers of a floating-point unit as the unit itself writes them (47_fpu_unit.md R274 to R277, R281, R283): writes
to the status registers, and FPMOV. -/

namespace Sys2Proof.Machine

/-! ### Signalled errors and checked writes -/

section StatusWrites

variable (s : State) (n : BitVec 3)

theorem State.signalUnitError_cop (e : BitVec 3) : (s.signalUnitError n e).cop n = { s.cop n with opX := e } := by
  simp [State.signalUnitError, State.cop_setCop]

theorem State.signalUnitError_pending (e : BitVec 3) :
    (s.signalUnitError n e).pendingUnitError[n.toNat]'n.isLt = true :=
  (State.pendingUnitError_setUnitError _ n n true).trans (if_pos rfl)

/-- Taking the z bits from elsewhere keeps every other bit of `fpcsr` (R276). -/
theorem csr_beyond_preserve (v w : Word) :
    ((v &&& ~~~csrPreserve) ||| (w &&& csrPreserve)) &&& 0xFFFF03EF = v &&& 0xFFFF03EF := by
  have hkept : ~~~csrPreserve &&& 0xFFFF03EF = 0xFFFF03EF := by decide
  have hgone : csrPreserve &&& 0xFFFF03EF = 0#32 := by decide
  rw [BitVec.and_or_distrib_right, BitVec.and_assoc, BitVec.and_assoc, hkept, hgone, BitVec.and_zero, BitVec.or_zero]

/-- Everything a write to `fpcsr` can do (R276, log 20). -/
theorem State.writeFpcsr_spec (v : Word) :
    (v &&& 0x3C1F0000 ≠ 0 ∧ s.writeFpcsr n v = s.signalUnitError n 3) ∨
    (v &&& 0x3C1F0000 = 0 ∧ v &&& 0x0000FC10 = (s.cop n).csr &&& 0x0000FC10 ∧
      s.writeFpcsr n v = s.setCop n { s.cop n with csr := v }) ∨
    (v &&& 0x3C1F0000 = 0 ∧ v &&& 0x0000FC10 ≠ (s.cop n).csr &&& 0x0000FC10 ∧
      (s.writeFpcsr n v = (s.spend 2).signalUnitError n 3 ∨
        ∃ csr, csr &&& 0xFFFF03EF = v &&& 0xFFFF03EF ∧
          s.writeFpcsr n v = (s.spend 2).setCop n { s.cop n with csr := csr })) := by
  unfold State.writeFpcsr
  by_cases hzero : v &&& csrMustBeZero = 0
  · rw [if_neg (not_not.2 hzero)]
    by_cases hkept : (v ^^^ (s.cop n).csr) &&& csrPreserve = 0
    · rw [if_pos hkept]
      exact .inr (.inl ⟨hzero, (preserve_iff v _).1 hkept, rfl⟩)
    · rw [if_neg hkept]
      refine .inr (.inr ⟨hzero, mt (preserve_iff v _).2 hkept, ?_⟩)
      cases Config.freeBool s.fresh with
      | true => exact .inl rfl
      | false => exact .inr ⟨_, csr_beyond_preserve v _, rfl⟩
  · rw [if_pos hzero]
    exact .inl ⟨hzero, rfl⟩

/-- A queued status write, when the unit reaches it, is the unit's own write of the register (R277). -/
theorem applyEvent_statusWrite {reg : BitVec 5} {v : Word} {q : List UnitWork} (hk : s.kind n = .fpu)
    (hq : (s.cop n).queue = .statusWrite reg v :: q) :
    applyEvent (.unitRun n) s = .next ((s.setQueue n q).unitWrite n reg v) := by
  have hkind : (s.setQueue n q).kind n = .fpu := hk
  simp only [applyEvent, runOldest, hq, runWork, hkind]

end StatusWrites

/-- Settles O56: `State.writeFpuop_spec` and `State.writeFpcsr_spec`, in the state with the write taken from the queue. -/
theorem statusWritesChecked : Obligations.StatusWritesChecked := by
  unfold Obligations.StatusWritesChecked
  intro n v q s hk
  have hcop : (s.setQueue n q).cop n = { s.cop n with queue := q } := (s.cop_setCop n n _).trans (if_pos rfl)
  have hframe (reg : BitVec 5) : s.SameBeyondUnit n ((s.setQueue n q).unitWrite n reg v) :=
    (State.sameBeyondUnit_setCop n s _).trans (State.sameBeyondUnit_unitWrite n _ reg v)
  constructor
  · intro hq
    refine ⟨_, applyEvent_statusWrite s n hk hq, hframe 24, ?_⟩
    have hwrite : (s.setQueue n q).unitWrite n 24 v = (s.setQueue n q).writeFpuop n v := rfl
    rw [hwrite]
    obtain ⟨hv, hzero⟩ | ⟨hv, herror⟩ := (s.setQueue n q).writeFpuop_spec n v
    · refine ⟨fun _ => ?_, fun h => absurd hv h⟩
      rw [hzero, State.cop_setCop, if_pos rfl, hcop]
      exact ⟨rfl, issuedPending_iff q, rfl⟩
    · refine ⟨fun h => absurd h hv, fun _ => ?_⟩
      rw [herror, State.signalUnitError_cop, hcop]
      exact ⟨rfl, State.signalUnitError_pending _ n 3⟩
  · intro hq
    refine ⟨_, applyEvent_statusWrite s n hk hq, hframe 25, ?_⟩
    have hwrite : (s.setQueue n q).unitWrite n 25 v = (s.setQueue n q).writeFpcsr n v := rfl
    rw [hwrite]
    have hspec := (s.setQueue n q).writeFpcsr_spec n v
    rw [hcop] at hspec
    obtain ⟨hv, herror⟩ | ⟨hv, hkept, hstored⟩ | ⟨hv, hchanged, herror | ⟨csr, hcsr, hstored⟩⟩ := hspec
    · refine ⟨fun _ => ?_, fun h => absurd h hv, fun h => absurd h hv⟩
      rw [herror, State.signalUnitError_cop, hcop]
      exact ⟨rfl, State.signalUnitError_pending _ n 3⟩
    · refine ⟨fun h => absurd hv h, fun _ _ => ?_, fun _ h => absurd hkept h⟩
      rw [hstored, State.cop_setCop, if_pos rfl]
      exact ⟨rfl, rfl⟩
    · refine ⟨fun h => absurd hv h, fun _ h => absurd h hchanged, fun _ _ => .inl ?_⟩
      rw [herror, State.signalUnitError_cop, State.cop_spend, hcop]
      exact ⟨rfl, State.signalUnitError_pending _ n 3⟩
    · refine ⟨fun h => absurd hv h, fun _ h => absurd h hchanged, fun _ _ => .inr ⟨csr, ?_, hcsr⟩⟩
      rw [hstored, State.cop_setCop, if_pos rfl]

/-! ### What a unit's own register write leaves -/

/-- Unit `n` of `t` has error number `x` and pending error `e`. -/
def State.Errors (n x : BitVec 3) (e : Bool) (t : State) : Prop :=
  (t.cop n).opX = x ∧ t.pendingUnitError[n.toNat]'n.isLt = e

/-- `w` is `s` after a write of `v` to `fpuop` of unit `n` (R275, log 40). -/
def State.FpuopWritten (n : BitVec 3) (v : Word) (s w : State) : Prop :=
  (w.cop n).csr = (s.cop n).csr ∧
    (v = 0 → ((w.cop n).opU = true ↔ ∃ f p, UnitWork.instr f p ∈ (s.cop n).queue) ∧
      w.Errors n 0 (s.pendingUnitError[n.toNat]'n.isLt)) ∧
    (v ≠ 0 → (w.cop n).opU = (s.cop n).opU ∧ w.Errors n 3 true)

/-- `w` is `s` after a write of `v` to `fpcsr` of unit `n` (R276, log 20). -/
def State.FpcsrWritten (n : BitVec 3) (v : Word) (s w : State) : Prop :=
  (w.cop n).opU = (s.cop n).opU ∧
    (v &&& 0x3C1F0000 ≠ 0 → (w.cop n).csr = (s.cop n).csr ∧ w.Errors n 3 true) ∧
    (v &&& 0x3C1F0000 = 0 → v &&& 0x0000FC10 = (s.cop n).csr &&& 0x0000FC10 →
      (w.cop n).csr = v ∧ w.Errors n (s.cop n).opX (s.pendingUnitError[n.toNat]'n.isLt)) ∧
    (v &&& 0x3C1F0000 = 0 → v &&& 0x0000FC10 ≠ (s.cop n).csr &&& 0x0000FC10 →
      ((w.cop n).csr = (s.cop n).csr ∧ w.Errors n 3 true) ∨
      ((w.cop n).csr &&& 0xFFFF03EF = v &&& 0xFFFF03EF ∧
        w.Errors n (s.cop n).opX (s.pendingUnitError[n.toNat]'n.isLt)))

/-- `w` is `s` after unit `n` wrote `v` to its described register `d`, as far as FPMOV's rule says, before the pending-error check
(R274 to R276, R283). -/
structure State.UnitWritten (n : BitVec 3) (d : BitVec 5) (v : Word) (s w : State) : Prop where
  ctl : (w.cop n).ctl = (s.cop n).ctl
  queue : (w.cop n).queue = (s.cop n).queue
  fp : ∀ j : Fin 16, (w.cop n).fp[j] = if j.val = d.toNat then v else (s.cop n).fp[j]
  fpi : ∀ j : Fin 8, (w.cop n).fpi[j] = if j.val + 16 = d.toNat then v else (s.cop n).fpi[j]
  general : d.toNat < 24 → (w.cop n).csr = (s.cop n).csr ∧ (w.cop n).opU = (s.cop n).opU ∧
    w.Errors n (s.cop n).opX (s.pendingUnitError[n.toNat]'n.isLt)
  fpuop : d = 24 → s.FpuopWritten n v w
  fpcsr : d = 25 → s.FpcsrWritten n v w

section UnitWritten

variable {n : BitVec 3} {d : BitVec 5} {v : Word} {s w : State}

/-- Registers 0 to 15 (R272). -/
theorem State.unitWrite_fp (hd : d.toNat < 16) : State.UnitWritten n d v s (s.unitWrite n d v) := by
  have hwrite : s.unitWrite n d v = s.setCop n { s.cop n with fp := (s.cop n).fp.set d.toNat v } := dif_pos hd
  have hcop := s.cop_setCop n n { s.cop n with fp := (s.cop n).fp.set d.toNat v }
  rw [if_pos rfl] at hcop
  rw [hwrite]
  refine ⟨by rw [hcop], by rw [hcop], fun j => ?_, fun j => ?_, fun _ => ⟨by rw [hcop], by rw [hcop], by rw [hcop], rfl⟩, ?_, ?_⟩
  · rw [hcop, Fin.getElem_fin, Vector.getElem_set]
    exact if_congr eq_comm rfl rfl
  · rw [hcop, if_neg (by omega)]
  · rintro rfl
    exact absurd hd (by decide)
  · rintro rfl
    exact absurd hd (by decide)

/-- Registers 16 to 23 (R272). -/
theorem State.unitWrite_fpi (hlow : 16 ≤ d.toNat) (hd : d.toNat < 24) :
    State.UnitWritten n d v s (s.unitWrite n d v) := by
  have hwrite : s.unitWrite n d v = s.setCop n { s.cop n with fpi := (s.cop n).fpi.set (d.toNat - 16) v } :=
    (dif_neg (Nat.not_lt.2 hlow)).trans (dif_pos hd)
  have hcop := s.cop_setCop n n { s.cop n with fpi := (s.cop n).fpi.set (d.toNat - 16) v }
  rw [if_pos rfl] at hcop
  rw [hwrite]
  refine ⟨by rw [hcop], by rw [hcop], fun j => ?_, fun j => ?_, fun _ => ⟨by rw [hcop], by rw [hcop], by rw [hcop], rfl⟩, ?_, ?_⟩
  · rw [hcop, if_neg (by omega)]
  · rw [hcop, Fin.getElem_fin, Vector.getElem_set]
    exact if_congr (by omega) rfl rfl
  · rintro rfl
    exact absurd hd (by decide)
  · rintro rfl
    exact absurd hd (by decide)

/-- A write that changes no `fp` or `fpi` register, neither of which `fpuop` and `fpcsr` is. -/
theorem State.UnitWritten.of_status (hd : 24 ≤ d.toNat) (hctl : (w.cop n).ctl = (s.cop n).ctl)
    (hqueue : (w.cop n).queue = (s.cop n).queue) (hfp : (w.cop n).fp = (s.cop n).fp) (hfpi : (w.cop n).fpi = (s.cop n).fpi)
    (hfpuop : d = 24 → s.FpuopWritten n v w) (hfpcsr : d = 25 → s.FpcsrWritten n v w) : State.UnitWritten n d v s w where
  ctl := hctl
  queue := hqueue
  fp j := by rw [hfp, if_neg (by omega)]
  fpi j := by rw [hfpi, if_neg (by omega)]
  general h := absurd h (Nat.not_lt.2 hd)
  fpuop := hfpuop
  fpcsr := hfpcsr

/-- `fpuop` (R275). -/
theorem State.unitWrite_fpuop (n : BitVec 3) (v : Word) (s : State) : State.UnitWritten n 24 v s (s.unitWrite n 24 v) := by
  have hwrite : s.unitWrite n 24 v = s.writeFpuop n v := rfl
  rw [hwrite]
  obtain ⟨hv, hzero⟩ | ⟨hv, herror⟩ := s.writeFpuop_spec n v
  · have hcop := s.cop_setCop n n { s.cop n with opX := 0, opU := issuedPending (s.cop n).queue, opBegun := false }
    rw [if_pos rfl] at hcop
    rw [hzero]
    refine .of_status (by decide) (by rw [hcop]) (by rw [hcop]) (by rw [hcop]) (by rw [hcop]) (fun _ => ?_) nofun
    refine ⟨by rw [hcop], fun _ => ⟨?_, by rw [hcop], rfl⟩, fun h => absurd hv h⟩
    rw [hcop]
    exact issuedPending_iff _
  · have hcop := s.signalUnitError_cop n 3
    rw [herror]
    refine .of_status (by decide) (by rw [hcop]) (by rw [hcop]) (by rw [hcop]) (by rw [hcop]) (fun _ => ?_) nofun
    exact ⟨by rw [hcop], fun h => absurd h hv, fun _ => ⟨by rw [hcop], by rw [hcop], s.signalUnitError_pending n 3⟩⟩

/-- `fpcsr` (R276, log 20). -/
theorem State.unitWrite_fpcsr (n : BitVec 3) (v : Word) (s : State) : State.UnitWritten n 25 v s (s.unitWrite n 25 v) := by
  have hwrite : s.unitWrite n 25 v = s.writeFpcsr n v := rfl
  rw [hwrite]
  obtain ⟨hv, herror⟩ | ⟨hv, hkept, hstored⟩ | ⟨hv, hchanged, herror | ⟨csr, hcsr, hstored⟩⟩ := s.writeFpcsr_spec n v
  · have hcop := s.signalUnitError_cop n 3
    rw [herror]
    refine .of_status (by decide) (by rw [hcop]) (by rw [hcop]) (by rw [hcop]) (by rw [hcop]) nofun (fun _ => ?_)
    exact ⟨by rw [hcop], fun _ => ⟨by rw [hcop], by rw [hcop], s.signalUnitError_pending n 3⟩, fun h => absurd h hv,
      fun h => absurd h hv⟩
  · have hcop := s.cop_setCop n n { s.cop n with csr := v }
    rw [if_pos rfl] at hcop
    rw [hstored]
    refine .of_status (by decide) (by rw [hcop]) (by rw [hcop]) (by rw [hcop]) (by rw [hcop]) nofun (fun _ => ?_)
    exact ⟨by rw [hcop], fun h => absurd hv h, fun _ _ => ⟨by rw [hcop], by rw [hcop], rfl⟩, fun _ h => absurd hkept h⟩
  · have hcop := (s.spend 2).signalUnitError_cop n 3
    rw [State.cop_spend] at hcop
    rw [herror]
    refine .of_status (by decide) (by rw [hcop]) (by rw [hcop]) (by rw [hcop]) (by rw [hcop]) nofun (fun _ => ?_)
    exact ⟨by rw [hcop], fun h => absurd hv h, fun _ h => absurd h hchanged,
      fun _ _ => .inl ⟨by rw [hcop], by rw [hcop], (s.spend 2).signalUnitError_pending n 3⟩⟩
  · have hcop := (s.spend 2).cop_setCop n n { s.cop n with csr := csr }
    rw [if_pos rfl] at hcop
    rw [hstored]
    refine .of_status (by decide) (by rw [hcop]) (by rw [hcop]) (by rw [hcop]) (by rw [hcop]) nofun (fun _ => ?_)
    exact ⟨by rw [hcop], fun h => absurd hv h, fun _ h => absurd h hchanged,
      fun _ _ => .inr ⟨by rw [hcop]; exact hcsr, by rw [hcop], rfl⟩⟩

/-- Every described register. -/
theorem State.unitWrite_written (n : BitVec 3) (v : Word) (s : State) (hd : d.toNat < 26) :
    State.UnitWritten n d v s (s.unitWrite n d v) := by
  by_cases h16 : d.toNat < 16
  · exact State.unitWrite_fp h16
  · by_cases h24 : d.toNat < 24
    · exact State.unitWrite_fpi (Nat.not_lt.1 h16) h24
    · have hcases : ∀ d : BitVec 5, ¬ d.toNat < 24 → d.toNat < 26 → d = 24 ∨ d = 25 := by decide
      obtain rfl | rfl := hcases d h24 hd
      · exact s.unitWrite_fpuop n v
      · exact s.unitWrite_fpcsr n v

end UnitWritten

/-! ### FPMOV -/

section Fpmov

variable {n : BitVec 3} {i d : BitVec 5} {c : Cond} {s : State}

theorem unitRegDescribed_of_lt (h : i.toNat < 26) : unitRegDescribed i = true := decide_eq_true h

theorem not_unitRegDescribed (h : 26 ≤ i.toNat) : unitRegDescribed i = false := decide_eq_false (Nat.not_lt.2 h)

theorem exec_fpmov_of_skipped (hc : ¬ c.holds ((s.cop n).csr.extractLsb' 0 4) = true) :
    exec (.fpmov n i d c) s = .next (s.checkPendingErrors n) := if_neg hc

theorem exec_fpmov_of_undescribed_source (hc : c.holds ((s.cop n).csr.extractLsb' 0 4) = true) (hi : 26 ≤ i.toNat) :
    exec (.fpmov n i d c) s = .refused (.fpuRegisterUndescribed i) := by
  refine (if_pos hc).trans ?_
  rw [not_unitRegDescribed hi]
  rfl

theorem exec_fpmov_of_undescribed_dest (hc : c.holds ((s.cop n).csr.extractLsb' 0 4) = true) (hi : i.toNat < 26)
    (hd : 26 ≤ d.toNat) : exec (.fpmov n i d c) s = .refused (.fpuRegisterUndescribed d) := by
  refine (if_pos hc).trans ?_
  rw [unitRegDescribed_of_lt hi, not_unitRegDescribed hd]
  rfl

/-- The move itself: a read, a write and the pending-error check. -/
theorem exec_fpmov_of_described (hc : c.holds ((s.cop n).csr.extractLsb' 0 4) = true) (hi : i.toNat < 26)
    (hd : d.toNat < 26) : exec (.fpmov n i d c) s =
      .next (((s.unitRead n i false true).2.unitWrite n d (s.unitRead n i false true).1).checkPendingErrors n) := by
  refine (if_pos hc).trans ?_
  rw [unitRegDescribed_of_lt hi, unitRegDescribed_of_lt hd]
  rfl

/-- A read of a unit's register uses at most a free value. -/
theorem State.unitRead_spend (s : State) (n : BitVec 3) (i : BitVec 5) (r running : Bool) :
    ∃ k, (s.unitRead n i r running).2 = s.spend k := by
  unfold State.unitRead
  dsimp only
  split
  · exact ⟨0, rfl⟩
  · split
    · exact ⟨0, rfl⟩
    · split
      · exact ⟨1, rfl⟩
      · exact ⟨0, rfl⟩

/-- The check after a write: the slot but for its error number, and the errors R281 says. -/
theorem State.Errors.checked {w : State} {x : BitVec 3} {e : Bool} (h : w.Errors n x e) :
    State.CheckedErrors n x e (w.checkPendingErrors n) := by
  obtain ⟨rfl, rfl⟩ := h
  exact State.checkPendingErrors_errors n w

end Fpmov

/-- Settles O55: the read is `State.unitRead_value`, the write `State.unitWrite_written`, and the check changes the error number
only. -/
theorem fpmovEffect : Obligations.FpmovEffect := by
  unfold Obligations.FpmovEffect
  intro n i d c s u e holds
  refine ⟨fun hc hi hd => ?_, fun hc hi => exec_fpmov_of_undescribed_source hc hi,
    fun hc hi hd => exec_fpmov_of_undescribed_dest hc hi hd, fun hc => ?_⟩
  · obtain ⟨k, hspend⟩ := s.unitRead_spend n i false true
    obtain ⟨hfp, hfpi, hfpuop, hcsr⟩ := s.unitRead_value n i false true
    obtain ⟨hx, hr, hu, -⟩ := fpuopWord_fields u false true (Config.freeWord s.fresh)
    have hexec := exec_fpmov_of_described hc hi hd
    rw [hspend] at hexec
    have hwritten := (s.spend k).unitWrite_written n (s.unitRead n i false true).1 hd
    have hcop := State.checkPendingErrors_cop n ((s.spend k).unitWrite n d (s.unitRead n i false true).1)
    have hframe := ((State.sameBeyondUnit_spend n s k).trans (State.sameBeyondUnit_unitWrite n (s.spend k) d
      (s.unitRead n i false true).1)).trans (State.sameBeyondUnit_checkPendingErrors n _)
    refine ⟨_, (s.unitRead n i false true).1, hexec, hframe, ?_⟩
    rw [hcop]
    refine ⟨hwritten.ctl, hwritten.queue, hfp, hfpi, fun h => ?_, hcsr, hwritten.fp, hwritten.fpi, fun h => ?_, fun h => ?_,
      fun h => ?_⟩
    · rw [hfpuop h]
      exact ⟨hx, hr, hu⟩
    · obtain ⟨hkept, hissued, herrors⟩ := hwritten.general h
      exact ⟨hkept, hissued, herrors.checked⟩
    · obtain ⟨hkept, hzero, hother⟩ := hwritten.fpuop h
      exact ⟨hkept, fun hv => (hzero hv).imp_right State.Errors.checked, fun hv => (hother hv).imp_right State.Errors.checked⟩
    · obtain ⟨hissued, hbad, hgood, hchanged⟩ := hwritten.fpcsr h
      exact ⟨hissued, fun hv => (hbad hv).imp_right State.Errors.checked,
        fun hv hz => (hgood hv hz).imp_right State.Errors.checked,
        fun hv hz => (hchanged hv hz).imp (And.imp_right State.Errors.checked) (And.imp_right State.Errors.checked)⟩
  · exact ⟨_, exec_fpmov_of_skipped hc, State.checkPendingErrors_cop n s, State.checkPendingErrors_errors n s,
      State.sameBeyondUnit_checkPendingErrors n s⟩

end Sys2Proof.Machine

/-! PROOFS. The conversions of a floating-point unit (47_fpu_unit.md R281, R284 to R287): what delivering a result leaves, when
rounding to FP32 is exact, and CVTI2F, CVTF2I and CVTF2F. -/

namespace Sys2Proof.Machine

/-! ### Delivering a result -/

section Deliver

variable (s : State) (n : BitVec 3) (d : BitVec 4) (v : Word) (x : Indications)

theorem State.deliver_csr : ((s.deliver n d v x).cop n).csr = (s.cop n).csr ||| x.bits := by
  rw [State.deliver_cop]

/-- A delivered result is in its register, and every other register is as before. -/
theorem State.deliver_fpReg (j : BitVec 4) :
    ((s.deliver n d v x).cop n).fpReg j = if j = d then v else (s.cop n).fpReg j := by
  rw [State.deliver_cop, Cop.fpReg, Vector.getElem_set, Cop.fpReg]
  exact if_congr (by rw [BitVec.toNat_inj, eq_comm]) rfl rfl

/-- Of its slot a delivery changes only `fp`, `fpcsr` and the error number. -/
theorem State.deliver_slot : (s.deliver n d v x).cop n =
    { s.cop n with
      fp := ((s.deliver n d v x).cop n).fp, csr := ((s.deliver n d v x).cop n).csr,
      opX := ((s.deliver n d v x).cop n).opX } := by
  rw [State.deliver_cop]

/-- The errors are those of the check in the state that holds the result (R281). -/
theorem State.deliver_errors :
    State.CheckedErrors n (s.cop n).opX (s.pendingUnitError[n.toNat]'n.isLt) (s.deliver n d v x) := by
  have h := State.checkPendingErrors_errors n
    (s.setCop n { s.cop n with fp := (s.cop n).fp.set d.toNat v d.isLt, csr := (s.cop n).csr ||| x.bits })
  rw [State.cop_setCop, if_pos rfl] at h
  exact h

theorem State.deliver_fresh : (s.deliver n d v x).fresh = s.fresh := by
  unfold State.deliver
  obtain ⟨-, h⟩ | ⟨-, h⟩ := State.checkPendingErrors_spec n
    (s.setCop n { s.cop n with fp := (s.cop n).fp.set d.toNat v d.isLt, csr := (s.cop n).csr ||| x.bits }) <;>
  · rw [h]
    rfl

end Deliver

/-! ### Exact results in FP32 -/

/-- An FP32 pattern by its fields (G3). -/
theorem unpackFloat_fp32_of_fields {v frac ex : Nat} {neg : Bool} (hfrac : v % 2 ^ 23 = frac) (hexp : v / 2 ^ 23 % 2 ^ 8 = ex)
    (hneg : decide (v / 2 ^ 31 % 2 = 1) = neg) : unpackFloat .fp32 v =
      if ex = 255 then if frac = 0 then .inf neg else .nan (decide (frac / 2 ^ 22 = 0))
      else if ex = 0 then .finite neg frac (-149)
      else .finite neg (2 ^ 23 + frac) (-149 + (ex - 1 : Nat)) := by
  subst hfrac hexp hneg
  rfl

/-- An FP16 pattern by its fields (G3). -/
theorem unpackFloat_fp16_of_fields {v frac ex : Nat} {neg : Bool} (hfrac : v % 2 ^ 10 = frac) (hexp : v / 2 ^ 10 % 2 ^ 5 = ex)
    (hneg : decide (v / 2 ^ 15 % 2 = 1) = neg) : unpackFloat .fp16 v =
      if ex = 31 then if frac = 0 then .inf neg else .nan (decide (frac / 2 ^ 9 = 0))
      else if ex = 0 then .finite neg frac (-24)
      else .finite neg (2 ^ 10 + frac) (-24 + (ex - 1 : Nat)) := by
  subst hfrac hexp hneg
  rfl

theorem signBits_fp32 (neg : Bool) : signBits .fp32 neg = if neg then 2 ^ 31 else 0 := rfl

/-- A significand below 2^24, normalised but in the lowest binade, unpacks from the encoding it is packed into (G3). -/
theorem unpackFloat_fp32_pack {R Q : Nat} (neg : Bool) (hR : R < 2 ^ 24) (hnorm : 2 ^ 23 ≤ R ∨ Q = 0)
    (hfinite : Q * 2 ^ 23 + R < 255 * 2 ^ 23) :
    unpackFloat .fp32 (signBits .fp32 neg + (Q * 2 ^ 23 + R)) = .finite neg R (-149 + Q) := by
  have hfrac : (signBits .fp32 neg + (Q * 2 ^ 23 + R)) % 2 ^ 23 = R % 2 ^ 23 := by
    rw [signBits_fp32]
    split <;> omega
  have hexp : (signBits .fp32 neg + (Q * 2 ^ 23 + R)) / 2 ^ 23 % 2 ^ 8 = Q + R / 2 ^ 23 := by
    rw [signBits_fp32]
    split <;> omega
  have hneg : decide ((signBits .fp32 neg + (Q * 2 ^ 23 + R)) / 2 ^ 31 % 2 = 1) = neg := by
    rw [Bool.eq_iff_iff, decide_eq_true_iff, signBits_fp32]
    cases neg
    · simp only [Bool.false_eq_true, if_false, iff_false]
      omega
    · simp only [if_true, iff_true]
      omega
  rw [unpackFloat_fp32_of_fields hfrac hexp hneg, if_neg (by omega)]
  by_cases hlow : R < 2 ^ 23
  · rw [if_pos (by omega), Nat.mod_eq_of_lt hlow]
    congr 1
    omega
  · rw [if_neg (by omega)]
    congr 1
    · omega
    · omega

/-- The quantum at which FP32 rounds a value whose leading bit is that of 2^top. -/
def fp32Quantum (top : Int) : Int := max (top - 23) (-149)

/-- Rounding at `q` loses nothing: `q` is no coarser than the value's own quantum, or divides it (R276). -/
def ExactAt (m : Nat) (e q : Int) : Prop := q ≤ e ∨ m % 2 ^ (q - e).toNat = 0

/-- A rounding that loses nothing gives the value in units of 2^q and is not inexact. -/
theorem roundAt_of_exact {m : Nat} {e q : Int} (rnd : RoundMode) (neg : Bool) (he : -149 ≤ e) (hq : -149 ≤ q)
    (h : ExactAt m e q) :
    (roundAt rnd neg m e q).2 = false ∧
      (roundAt rnd neg m e q).1 * 2 ^ (q + 149).toNat = m * 2 ^ (e + 149).toNat := by
  unfold roundAt
  by_cases hle : q ≤ e
  · rw [if_pos hle]
    have hsum : (e - q).toNat + (q + 149).toNat = (e + 149).toNat := by omega
    exact ⟨rfl, by rw [Nat.mul_assoc, ← Nat.pow_add, hsum]⟩
  · rw [if_neg hle]
    have hrem := h.resolve_left hle
    have hup : roundsUp rnd neg (m / 2 ^ (q - e).toNat) 0 (q - e).toNat = false := by
      have hpos := Nat.two_pow_pos (q - e).toNat
      cases rnd with
      | nearestEven =>
        simp only [roundsUp, Nat.mul_zero, Bool.or_eq_false_iff, decide_eq_false_iff_not, Bool.and_eq_false_iff]
        omega
      | towardZero | towardPositive | towardNegative => rfl
    have hsum : (q + 149).toNat = (q - e).toNat + (e + 149).toNat := by omega
    simp only [hrem, hup]
    refine ⟨rfl, ?_⟩
    rw [if_neg Bool.false_ne_true, hsum, Nat.pow_add, ← Nat.mul_assoc, Nat.div_mul_cancel (Nat.dvd_of_mod_eq_zero hrem)]

/-- The significand that an exact rounding to FP32 gives is below 2^24, and normalised but in the lowest binade. -/
theorem fp32_significand {m R E Q : Nat} (hm : m ≠ 0) (hvalue : R * 2 ^ Q = m * 2 ^ E)
    (hQ : Q + 23 = E + m.log2 ∨ (Q = 0 ∧ E + m.log2 < 23)) : R < 2 ^ 24 ∧ (2 ^ 23 ≤ R ∨ Q = 0) := by
  have hlow : 2 ^ (E + m.log2) ≤ R * 2 ^ Q := by
    rw [hvalue, Nat.pow_add, Nat.mul_comm]
    exact Nat.mul_le_mul_right _ (Nat.log2_self_le hm)
  have hhigh : R * 2 ^ Q < 2 ^ (E + m.log2 + 1) := by
    rw [hvalue, Nat.add_assoc, Nat.pow_add, Nat.mul_comm (2 ^ E)]
    exact Nat.mul_lt_mul_of_pos_right Nat.lt_log2_self (Nat.two_pow_pos E)
  obtain hQ | ⟨rfl, hsmall⟩ := hQ
  · rw [← hQ, Nat.pow_add, Nat.mul_comm] at hlow
    rw [← hQ, Nat.add_assoc, Nat.pow_add, Nat.mul_comm (2 ^ Q)] at hhigh
    exact ⟨Nat.lt_of_mul_lt_mul_right hhigh, .inl (Nat.le_of_mul_le_mul_right hlow (Nat.two_pow_pos Q))⟩
  · refine ⟨?_, .inr rfl⟩
    rw [Nat.pow_zero, Nat.mul_one] at hhigh
    exact hhigh.trans_le (Nat.pow_le_pow_right (by decide) (by omega))

/-- A value that FP32 holds exactly is rounded to itself, in every mode, without an indication (G4). -/
theorem roundToFormat_fp32_exact {m : Nat} {e : Int} (rnd : RoundMode) (neg : Bool) (he : -149 ≤ e)
    (htop : e + m.log2 ≤ 127) (hexact : ExactAt m e (fp32Quantum (e + m.log2))) :
    ∃ R Q : Nat, roundToFormat .fp32 rnd neg m e = (signBits .fp32 neg + (Q * 2 ^ 23 + R), {}) ∧ R < 2 ^ 24 ∧
      (2 ^ 23 ≤ R ∨ Q = 0) ∧ Q * 2 ^ 23 + R < 255 * 2 ^ 23 ∧ R * 2 ^ Q = m * 2 ^ (e + 149).toNat := by
  by_cases hm : m = 0
  · subst hm
    exact ⟨0, 0, rfl, by decide, .inr rfl, by decide, by simp⟩
  · have hq : -149 ≤ fp32Quantum (e + m.log2) := le_max_right _ _
    obtain ⟨hinexact, hvalue⟩ := roundAt_of_exact rnd neg he hq hexact
    have hQ : (fp32Quantum (e + m.log2) + 149).toNat + 23 = (e + 149).toNat + m.log2 ∨
        ((fp32Quantum (e + m.log2) + 149).toNat = 0 ∧ (e + 149).toNat + m.log2 < 23) := by
      unfold fp32Quantum
      omega
    obtain ⟨hR, hnorm⟩ := fp32_significand hm hvalue hQ
    have hfinite : (fp32Quantum (e + m.log2) + 149).toNat * 2 ^ 23 +
        (roundAt rnd neg m e (fp32Quantum (e + m.log2))).1 < 255 * 2 ^ 23 := by
      omega
    refine ⟨_, _, ?_, hR, hnorm, hfinite, hvalue⟩
    have hquantum : max (e + (m.log2 : Int) - (fracBits .fp32 : Nat)) (minQuantum .fp32) = fp32Quantum (e + m.log2) := rfl
    have hplaces : (fp32Quantum (e + m.log2) - minQuantum .fp32).toNat = (fp32Quantum (e + m.log2) + 149).toNat := by
      simp only [minQuantum, sub_neg_eq_add]
    have hinf : infBits .fp32 = 255 * 2 ^ 23 := rfl
    unfold roundToFormat
    simp only [if_neg hm, hquantum, hplaces, hinexact, hinf, Bool.and_false]
    exact if_neg (Nat.not_le.2 hfinite)

/-- What unpacks from a register that holds an exact result: the same value. -/
theorem unpackFloat_of_exact {m : Nat} {e : Int} (rnd : RoundMode) (neg : Bool) (he : -149 ≤ e)
    (htop : e + m.log2 ≤ 127) (hexact : ExactAt m e (fp32Quantum (e + m.log2))) :
    (roundToFormat .fp32 rnd neg m e).2 = {} ∧
      ∃ m' e', unpackFloat .fp32 (BitVec.ofNat 32 (roundToFormat .fp32 rnd neg m e).1).toNat = .finite neg m' e' ∧
        -149 ≤ e' ∧ m' * 2 ^ (e' + 149).toNat = m * 2 ^ (e + 149).toNat := by
  obtain ⟨R, Q, hround, hR, hnorm, hfinite, hvalue⟩ := roundToFormat_fp32_exact rnd neg he htop hexact
  have hsign : signBits .fp32 neg ≤ 2 ^ 31 := by cases neg <;> decide
  rw [hround]
  refine ⟨rfl, R, -149 + Q, ?_, by omega, ?_⟩
  · rw [BitVec.toNat_ofNat, Nat.mod_eq_of_lt (by omega)]
    exact unpackFloat_fp32_pack neg hR hnorm hfinite
  · have hQ : (-149 + (Q : Int) + 149).toNat = Q := by omega
    rw [hQ, hvalue]

/-! ### CVTI2F -/

theorem exec_cvti2f (n : BitVec 3) (i : BitVec 3) (d : BitVec 4) (sg : Bool) (k : FloatFormat) (y : Bool) (r : RoundMode)
    (s : State) : exec (.cvti2f n i d sg k y r) s = .next (s.deliver n d
      (floatResult s.cfg.fp16 k ((s.cop n).fpReg d)
        (convertFromInt k (s.roundingMode n y r) sg ((s.cop n).fpReg (i.setWidth 4))).1)
      (convertFromInt k (s.roundingMode n y r) sg ((s.cop n).fpReg (i.setWidth 4))).2) := rfl

/-- A value of at least 1 is not tiny, and no finite value is invalid (G4, R276). -/
theorem roundToFormat_indications (f : FloatFormat) (rnd : RoundMode) (neg : Bool) (m : Nat) :
    (roundToFormat f rnd neg m 0).2.underflow = false ∧ (roundToFormat f rnd neg m 0).2.invalid = false := by
  have hmin : minQuantum f + (fracBits f : Nat) ≤ 0 := by cases f <;> decide
  have hnormal : decide ((0 : Int) + (m.log2 : Int) < minQuantum f + (fracBits f : Nat)) = false := by
    rw [decide_eq_false_iff_not]
    omega
  unfold roundToFormat
  split
  · exact ⟨rfl, rfl⟩
  · simp only [hnormal, Bool.false_and]
    split <;> exact ⟨rfl, rfl⟩

/-- Overflow and inexact are the only indications that a conversion from an integer sets (R276, R286). -/
theorem indications_bits_le {x : Indications} (hunderflow : x.underflow = false) (hinvalid : x.invalid = false) :
    x.bits ||| 0xA0 = 0xA0 := by
  obtain ⟨o, u, i, v⟩ := x
  cases hunderflow
  cases hinvalid
  revert o i
  decide

/-- The bit that an inexact result adds to `fpcsr` (R276). -/
theorem inexact_bits (b : Bool) : Indications.bits { inexact := b } = if b then 0x80 else 0 := by
  cases b <;> rfl

/-- The bit that an invalid operation adds to `fpcsr` (R276). -/
theorem invalid_bits (b : Bool) : Indications.bits { invalid := b } = if b then 0x200 else 0 := by
  cases b <;> rfl

/-- An exact result adds nothing to `fpcsr`. -/
theorem no_bits : Indications.bits {} = 0#32 := rfl

/-- Adding indications to `fpcsr` keeps those it holds. -/
theorem and_or_absorb (v w : Word) : v &&& (v ||| w) = v := by
  apply BitVec.eq_of_getLsbD_eq
  intro k _
  rw [BitVec.getLsbD_and, BitVec.getLsbD_or]
  cases v.getLsbD k <;> rfl

/-- An integer of magnitude up to 2^24 loses nothing in FP32. -/
theorem exactAt_of_int {m : Nat} (hm : m ≤ 2 ^ 24) : (0 : Int) + m.log2 ≤ 127 ∧ ExactAt m 0 (fp32Quantum (0 + m.log2)) := by
  obtain hlt | rfl := Nat.lt_or_eq_of_le hm
  · have hlog : m.log2 < 24 := by
      by_cases h0 : m = 0
      · subst h0
        decide
      · exact (Nat.log2_lt h0).2 hlt
    refine ⟨by omega, .inl ?_⟩
    unfold fp32Quantum
    omega
  · have hlog : (2 ^ 24).log2 = 24 := Nat.log2_two_pow
    rw [hlog]
    exact ⟨by decide, .inr (by decide)⟩

/-- Settles O57: the delivery keeps the rest of the slot, and small integers are exact. -/
theorem cvti2fExact : Obligations.Cvti2fExact := by
  unfold Obligations.Cvti2fExact
  intro n i d sg y r s u z
  refine ⟨fun k => ?_, fun hz => ?_⟩
  · obtain ⟨hunderflow, hinvalid⟩ := roundToFormat_indications k (s.roundingMode n y r) (decide (z < 0)) z.natAbs
    have hbits := indications_bits_le hunderflow hinvalid
    refine ⟨_, exec_cvti2f n i d sg k y r s, s.deliver_fresh n d _ _, State.sameBeyondUnit_deliver n s d _ _,
      s.deliver_slot n d _ _, fun j hj => (s.deliver_fpReg n d _ _ j).trans (if_neg hj), ?_, ?_, s.deliver_errors n d _ _⟩
    · rw [State.deliver_csr, BitVec.and_comm]
      exact and_or_absorb _ _
    · rw [State.deliver_csr, BitVec.or_assoc]
      exact congrArg (u.csr ||| ·) hbits
  · obtain ⟨htop, hexact⟩ := exactAt_of_int hz
    obtain ⟨hnone, m, e, hunpack, he, hvalue⟩ :=
      unpackFloat_of_exact (s.roundingMode n y r) (decide (z < 0)) (by decide : (-149 : Int) ≤ 0) htop hexact
    refine ⟨_, m, e, exec_cvti2f n i d sg .fp32 y r s, ?_, hvalue, he, ?_⟩
    · rw [State.deliver_fpReg, if_pos rfl]
      exact hunpack
    · have hbits : (convertFromInt .fp32 (s.roundingMode n y r) sg ((s.cop n).fpReg (i.setWidth 4))).2.bits = 0#32 :=
        (congrArg Indications.bits hnone).trans no_bits
      rw [State.deliver_csr, hbits, BitVec.or_zero]

/-! ### CVTF2I -/

theorem exec_cvtf2i (n : BitVec 3) (i : BitVec 4) (d : BitVec 3) (f : FloatFormat) (sg y : Bool) (r : RoundMode) (s : State)
    {z : Word × Indications} (hz : convertToInt f (s.roundingMode n y r) sg
      (floatOperand s.cfg.fp16 f ((s.cop n).fpReg i)) (Config.freeWord s.fresh) = z) :
    exec (.cvtf2i n i d f sg y r) s = .next ((s.spend 1).deliver n (d.setWidth 4) z.1 z.2) := by
  subst hz
  rfl

theorem fitsInt_iff (sg : Bool) (z : Int) :
    fitsInt sg z = true ↔ if sg then -2 ^ 31 ≤ z ∧ z < 2 ^ 31 else 0 ≤ z ∧ z < 2 ^ 32 := by
  cases sg <;> simp [fitsInt]

/-- What a conversion of a finite value to an integer gives (R287). -/
theorem convertToInt_of_finite {f : FloatFormat} {v m : Nat} {neg : Bool} {e : Int} (rnd : RoundMode) (sg : Bool)
    (free : Word) (hv : unpackFloat f v = .finite neg m e) :
    let num : Int := (if neg then -(m : Int) else m) * 2 ^ e.toNat
    let den : Nat := 2 ^ (-e).toNat
    ∃ z, RoundsTo rnd num den z ∧
      (fitsInt sg z = true → convertToInt f rnd sg v free = (BitVec.ofInt 32 z, { inexact := decide (num % den ≠ 0) })) ∧
      (¬ fitsInt sg z = true → convertToInt f rnd sg v free = (free, { invalid := true })) := by
  intro num den
  obtain ⟨hrounds, hinexact⟩ := roundAt_spec rnd neg m e
  refine ⟨_, hrounds, fun hfits => ?_, fun hfits => ?_⟩
  · have hflag : (roundAt rnd neg m e 0).2 = decide (num % den ≠ 0) := Bool.eq_iff_iff.2 (hinexact.trans decide_eq_true_iff.symm)
    unfold convertToInt
    simp only [hv, hflag]
    exact if_pos hfits
  · unfold convertToInt
    simp only [hv]
    exact if_neg hfits

/-- What a NaN or an infinity converts to (R287, log 25). -/
theorem convertToInt_of_not_finite {f : FloatFormat} {v : Nat} (rnd : RoundMode) (sg : Bool) (free : Word)
    (hv : ∀ neg m e, unpackFloat f v ≠ .finite neg m e) : convertToInt f rnd sg v free = (free, { invalid := true }) := by
  unfold convertToInt
  split
  · rfl
  · rfl
  next neg m e h => exact absurd h (hv neg m e)

/-- Settles O58: the delivery keeps the rest of the slot, and `roundAt_spec` says what a finite value rounds to. -/
theorem cvtf2iTruncates : Obligations.Cvtf2iTruncates := by
  unfold Obligations.Cvtf2iTruncates
  intro n i d f sg y r s u v fits
  obtain ⟨z, hz⟩ : ∃ z, convertToInt f (s.roundingMode n y r) sg (floatOperand s.cfg.fp16 f (u.fpReg i))
      (Config.freeWord s.fresh) = z := ⟨_, rfl⟩
  have hcsr := (s.spend 1).deliver_csr n (d.setWidth 4) z.1 z.2
  have hinvalid (h : z = (Config.freeWord s.fresh, { invalid := true })) :
      (((s.spend 1).deliver n (d.setWidth 4) z.1 z.2).cop n).csr = u.csr ||| 0x200 := by
    rw [hcsr, h, invalid_bits, if_pos rfl, State.cop_spend]
  refine ⟨_, exec_cvtf2i n i d f sg y r s hz,
    (State.sameBeyondUnit_spend n s 1).trans (State.sameBeyondUnit_deliver n _ _ _ _), (s.spend 1).deliver_slot n _ _ _,
    fun j hj => ((s.spend 1).deliver_fpReg n _ _ _ j).trans (if_neg hj), (s.spend 1).deliver_errors n _ _ _,
    fun neg m e hv => ?_, fun hv => hinvalid (hz.symm.trans (convertToInt_of_not_finite _ sg _ hv))⟩
  intro num den
  obtain ⟨w, hrounds, hfit, hout⟩ := convertToInt_of_finite (s.roundingMode n y r) sg (Config.freeWord s.fresh) hv
  refine ⟨w, hrounds, fun hw => ?_, fun hw => hinvalid (hz.symm.trans (hout (mt (fitsInt_iff sg w).1 hw)))⟩
  have hresult := hz.symm.trans (hfit ((fitsInt_iff sg w).2 hw))
  constructor
  · rw [State.deliver_fpReg, if_pos rfl, hresult]
  · rw [hcsr, hresult, inexact_bits, State.cop_spend]
    simp only [decide_eq_true_iff]
    rfl

/-! ### CVTF2F -/

theorem exec_cvtf2f (n : BitVec 3) (i d : BitVec 4) (f k : FloatFormat) (y : Bool) (r : RoundMode) (s : State)
    {z : Nat × Indications} (hz : convertFormat f k (s.roundingMode n y r)
      (floatOperand s.cfg.fp16 f ((s.cop n).fpReg i)) (Config.freeWord s.fresh) (Config.freeBool s.fresh) = z) :
    exec (.cvtf2f n i d f k y r) s =
      .next ((s.spend 1).deliver n d (floatResult s.cfg.fp16 k ((s.cop n).fpReg d) z.1) z.2) := by
  subst hz
  rfl

/-- An FP16 value stands in the low half of a register (R284). -/
theorem unpackFloat_fp16_low (v : Word) : unpackFloat .fp16 (v.extractLsb' 0 16).toNat = unpackFloat .fp16 v.toNat := by
  have hfrac : v.toNat % 2 ^ 16 % 2 ^ 10 = v.toNat % 2 ^ 10 := by omega
  have hexp : v.toNat % 2 ^ 16 / 2 ^ 10 % 2 ^ 5 = v.toNat / 2 ^ 10 % 2 ^ 5 := by omega
  have hsign : v.toNat % 2 ^ 16 / 2 ^ 15 % 2 = v.toNat / 2 ^ 15 % 2 := by omega
  rw [BitVec.extractLsb'_toNat, Nat.shiftRight_zero,
    unpackFloat_fp16_of_fields hfrac hexp (congrArg (fun b => decide (b = 1)) hsign), unpackFloat_fp16_of_fields rfl rfl rfl]

/-- An FP16 number has at most 11 significant bits and an exponent between -24 and 5 (G3). -/
theorem unpackFloat_fp16_bounds {v m : Nat} {neg : Bool} {e : Int} (h : unpackFloat .fp16 v = .finite neg m e) :
    m < 2 ^ 11 ∧ -24 ≤ e ∧ e ≤ 5 := by
  have hfrac : v % 2 ^ 10 < 2 ^ 10 := Nat.mod_lt _ (by decide)
  have hexp : v / 2 ^ 10 % 2 ^ 5 < 2 ^ 5 := Nat.mod_lt _ (by decide)
  rw [unpackFloat_fp16_of_fields rfl rfl rfl] at h
  split at h
  · split at h <;> cases h
  next hfinite =>
    split at h
    · cases h
      omega
    · cases h
      omega

/-- Every FP16 number is one of FP32's (R285). -/
theorem exactAt_of_fp16 {m : Nat} {e : Int} (hm : m < 2 ^ 11) (hlow : -24 ≤ e) (hhigh : e ≤ 5) :
    e + m.log2 ≤ 127 ∧ ExactAt m e (fp32Quantum (e + m.log2)) := by
  have hlog : m.log2 < 11 := by
    by_cases h0 : m = 0
    · subst h0
      decide
    · exact (Nat.log2_lt h0).2 hm
  refine ⟨by omega, .inl ?_⟩
  unfold fp32Quantum
  omega

/-- A NaN made for FP32 unpacks as a quiet NaN, whatever its open bits (log 24). -/
theorem unpackFloat_quietNaN (free : Word) : unpackFloat .fp32 (BitVec.ofNat 32 (quietNaN .fp32 free)).toNat = .nan false := by
  obtain ⟨neg, hbits⟩ : ∃ neg, quietNaN .fp32 free = signBits .fp32 neg + 255 * 2 ^ 23 + 2 ^ 22 + free.toNat % 2 ^ 22 :=
    ⟨_, rfl⟩
  have hsign : signBits .fp32 neg = 0 ∨ signBits .fp32 neg = 2 ^ 31 := by cases neg <;> decide
  have hfrac : quietNaN .fp32 free % 2 ^ 32 % 2 ^ 23 = 2 ^ 22 + free.toNat % 2 ^ 22 := by omega
  have hexp : quietNaN .fp32 free % 2 ^ 32 / 2 ^ 23 % 2 ^ 8 = 255 := by omega
  have hquiet : decide ((2 ^ 22 + free.toNat % 2 ^ 22) / 2 ^ 22 = 0) = false := by
    rw [decide_eq_false_iff_not]
    omega
  rw [BitVec.toNat_ofNat, unpackFloat_fp32_of_fields hfrac hexp rfl, if_pos rfl, if_neg (by omega), hquiet]

theorem unpackFloat_inf (neg : Bool) :
    unpackFloat .fp32 (BitVec.ofNat 32 (signBits .fp32 neg + infBits .fp32)).toNat = .inf neg := by
  cases neg <;> decide

/-- Settles O59: a number is exact, an infinity keeps its sign, and a NaN is made quiet. -/
theorem cvtf2fHalfToSingle : Obligations.Cvtf2fHalfToSingle := by
  unfold Obligations.Cvtf2fHalfToSingle
  intro n i d y r s
  refine ⟨fun f k => ?_, fun hbox => ?_⟩
  · exact ⟨_, exec_cvtf2f n i d f k y r s rfl,
      (State.sameBeyondUnit_spend n s 1).trans (State.sameBeyondUnit_deliver n _ _ _ _),
      fun j hj => ((s.spend 1).deliver_fpReg n _ _ _ j).trans (if_neg hj),
      by rw [State.deliver_cop, State.cop_spend], (s.spend 1).deliver_errors n _ _ _⟩
  · intro v
    obtain ⟨z, hz⟩ : ∃ z, convertFormat .fp16 .fp32 (s.roundingMode n y r)
        (floatOperand s.cfg.fp16 .fp16 ((s.cop n).fpReg i)) (Config.freeWord s.fresh) (Config.freeBool s.fresh) = z := ⟨_, rfl⟩
    have hoperand : unpackFloat .fp16 (floatOperand s.cfg.fp16 .fp16 ((s.cop n).fpReg i)) = v := by
      rw [hbox]
      exact unpackFloat_fp16_low _
    refine ⟨_, exec_cvtf2f n i d .fp16 .fp32 y r s hz, ?_⟩
    rw [State.deliver_fpReg, if_pos rfl, State.deliver_csr, State.cop_spend]
    intro u
    refine ⟨fun neg m e hv => ?_, fun neg hv => ?_, fun sig hv => ?_⟩
    · obtain ⟨hm, hlow, hhigh⟩ := unpackFloat_fp16_bounds hv
      obtain ⟨htop, hexact⟩ := exactAt_of_fp16 hm hlow hhigh
      obtain ⟨hnone, m', e', hunpack, he', hvalue⟩ :=
        unpackFloat_of_exact (s.roundingMode n y r) neg (by omega : -149 ≤ e) htop hexact
      have hconverted : z = roundToFormat .fp32 (s.roundingMode n y r) neg m e := by
        rw [← hz, convertFormat, hoperand, hv]
      rw [← hconverted] at hnone hunpack
      refine ⟨m', e', hunpack, he', hvalue, ?_⟩
      rw [hnone, no_bits, BitVec.or_zero]
    · have hconverted : z = (signBits .fp32 neg + infBits .fp32, {}) := by
        rw [← hz, convertFormat, hoperand, hv]
      refine ⟨?_, ?_⟩
      · unfold u
        rw [hconverted]
        exact unpackFloat_inf neg
      · rw [hconverted, no_bits, BitVec.or_zero]
    · have hconverted : z = (quietNaN .fp32 (Config.freeWord s.fresh), { invalid := sig }) := by
        rw [← hz, convertFormat, hoperand, hv]
        rfl
      refine ⟨?_, ?_⟩
      · unfold u
        rw [hconverted]
        exact unpackFloat_quietNaN _
      · rw [hconverted, invalid_bits]

end Sys2Proof.Machine
